-- ==== Sys2Proof/Word.lean ====
section
/-! DEFINITION. The widths of the machine's values (00_scope R9, R10) and their plainest conversions. -/

namespace Sys2Proof

/-- A memory byte, a general register, a timer (10_state R20). -/
abbrev Byte := BitVec 8

/-- An instruction word, `I`, `PC`, a stack entry (10_state R20, 30_encoding R70). -/
abbrev Word := BitVec 16

/-- A register number, `X` or `Y`: a 4-bit field, so no index outside 0..15 exists (10_state R22, 93 U2). -/
abbrev Reg := BitVec 4

/-- The immediate `N` (30_encoding R72). -/
abbrev Imm4 := BitVec 4

/-- The immediate `NN` (30_encoding R72). -/
abbrev Imm8 := BitVec 8

/-- The immediate `NNN` (30_encoding R72). -/
abbrev Imm12 := BitVec 12

/-- An address recorded beside the fault bit: 17 bits (10_state R20, 20_memory R53). -/
abbrev FaultAddr := BitVec 17

/-- `VF`, the flag register, is `V[15]` (10_state R22, R23). -/
abbrev VF : Reg := 15#4

/-- `zext_16` of the notation (00_scope R10). -/
abbrev zext16 {n : Nat} (v : BitVec n) : Word := v.setWidth 16

/-- `zext_8` of the notation (00_scope R10). -/
abbrev zext8 {n : Nat} (v : BitVec n) : Byte := v.setWidth 8

end Sys2Proof
end

