-- ==== Sys2Proof/Syntax.lean ====
section
/-! DEFINITION. The 34 instructions, one constructor per row of the opcode map, in its order (30_encoding R74).
A word of no row is `UNKNOWN` (R75): it is no instruction, and the decoder rejects it by name. -/

namespace Sys2Proof

/-- The instructions of 30_encoding R74. `x`, `y` are register numbers, `n`, `nn`, `nnn` unsigned immediates (R72). -/
inductive Instr where
  /-- `00E0` `CLS` -/
  | cls
  /-- `00EE` `RET` -/
  | ret
  /-- `1NNN` `JP NNN` -/
  | jp (nnn : Imm12)
  /-- `2NNN` `CALL NNN` -/
  | call (nnn : Imm12)
  /-- `3XNN` `SE Vx, NN` -/
  | seImm (x : Reg) (nn : Imm8)
  /-- `4XNN` `SNE Vx, NN` -/
  | sneImm (x : Reg) (nn : Imm8)
  /-- `5XY0` `SE Vx, Vy` -/
  | seReg (x y : Reg)
  /-- `6XNN` `LD Vx, NN` -/
  | ldImm (x : Reg) (nn : Imm8)
  /-- `7XNN` `ADD Vx, NN` -/
  | addImm (x : Reg) (nn : Imm8)
  /-- `8XY0` `LD Vx, Vy` -/
  | ldReg (x y : Reg)
  /-- `8XY1` `OR Vx, Vy` -/
  | orReg (x y : Reg)
  /-- `8XY2` `AND Vx, Vy` -/
  | andReg (x y : Reg)
  /-- `8XY3` `XOR Vx, Vy` -/
  | xorReg (x y : Reg)
  /-- `8XY4` `ADD Vx, Vy` -/
  | addReg (x y : Reg)
  /-- `8XY5` `SUB Vx, Vy` -/
  | subReg (x y : Reg)
  /-- `8XY7` `SUBN Vx, Vy` -/
  | subnReg (x y : Reg)
  /-- `8XY6` `SHR Vx, Vy` -/
  | shrReg (x y : Reg)
  /-- `8XYE` `SHL Vx, Vy` -/
  | shlReg (x y : Reg)
  /-- `9XY0` `SNE Vx, Vy` -/
  | sneReg (x y : Reg)
  /-- `ANNN` `LD I, NNN` -/
  | ldIndex (nnn : Imm12)
  /-- `BNNN` `JP V0, NNN`; `x` is the field X = `NNN[11:8]`, "used twice" (R72) -/
  | jpV0 (x : Reg) (nnn : Imm12)
  /-- `CXNN` `RND Vx, NN` -/
  | rnd (x : Reg) (nn : Imm8)
  /-- `DXYN` `DRW Vx, Vy, N` -/
  | drw (x y : Reg) (n : Imm4)
  /-- `EX9E` `SKP Vx` -/
  | skp (x : Reg)
  /-- `EXA1` `SKNP Vx` -/
  | sknp (x : Reg)
  /-- `FX07` `LD Vx, DT` -/
  | ldFromDelay (x : Reg)
  /-- `FX15` `LD DT, Vx` -/
  | ldDelay (x : Reg)
  /-- `FX18` `LD ST, Vx` -/
  | ldSound (x : Reg)
  /-- `FX1E` `ADD I, Vx` -/
  | addIndex (x : Reg)
  /-- `FX0A` `LD Vx, K` -/
  | ldKey (x : Reg)
  /-- `FX29` `LD F, Vx` -/
  | ldFont (x : Reg)
  /-- `FX33` `LD B, Vx` -/
  | ldBcd (x : Reg)
  /-- `FX55` `LD [I], Vx` -/
  | storeRegs (x : Reg)
  /-- `FX65` `LD Vx, [I]` -/
  | loadRegs (x : Reg)
deriving DecidableEq, Repr

end Sys2Proof
end

