-- ==== Sys2Proof/WellFormed.lean ====
section
/-! DEFINITION. Which terms of `Instr` an instruction word can stand for (30_encoding R71, R72).
Field widths are in the types; the one relation between fields is that of `BNNN`. -/

namespace Sys2Proof

/-- The operands agree with the encoding's overlapping fields: in `BNNN`, X is the top nibble of `NNN`
(30_encoding R72, 41_control_flow R118). -/
def Instr.wf : Instr → Bool
  | .jpV0 x nnn => x == nnn.extractLsb' 8 4
  | .cls | .ret | .jp _ | .call _ | .seImm _ _ | .sneImm _ _ | .seReg _ _ | .ldImm _ _ | .addImm _ _
  | .ldReg _ _ | .orReg _ _ | .andReg _ _ | .xorReg _ _ | .addReg _ _ | .subReg _ _ | .subnReg _ _
  | .shrReg _ _ | .shlReg _ _ | .sneReg _ _ | .ldIndex _ | .rnd _ _ | .drw _ _ _ | .skp _ | .sknp _
  | .ldFromDelay _ | .ldDelay _ | .ldSound _ | .addIndex _ | .ldKey _ | .ldFont _ | .ldBcd _
  | .storeRegs _ | .loadRegs _ => true

end Sys2Proof
end

