-- ==== Sys2Proof/Decode.lean ====
section
/-! DEFINITION. The decoder (30_encoding R73, R75), the opcode map as rows (R74), and the encoder (R71, R74). -/

namespace Sys2Proof

/-! ### Fields of an instruction word (00_scope R11) -/

/-- `w[15:12]`, the family. -/
def fieldFamily (w : Word) : BitVec 4 := w.extractLsb' 12 4

/-- `X = w[11:8]`. -/
def fieldX (w : Word) : Reg := w.extractLsb' 8 4

/-- `Y = w[7:4]`. -/
def fieldY (w : Word) : Reg := w.extractLsb' 4 4

/-- `N = w[3:0]`. -/
def fieldN (w : Word) : Imm4 := w.extractLsb' 0 4

/-- `NN = w[7:0]`. -/
def fieldNN (w : Word) : Imm8 := w.extractLsb' 0 8

/-- `NNN = w[11:0]`. -/
def fieldNNN (w : Word) : Imm12 := w.extractLsb' 0 12

/-! ### The decoder -/

/-- `Decode(w)` of 30_encoding R73; `none` is `UNKNOWN` (R75). Fixed digits are required (D8). -/
def decodeWord (w : Word) : Option Instr :=
  match fieldFamily w with
  | 0x0#4 => if w = 0x00E0#16 then some .cls else if w = 0x00EE#16 then some .ret else none
  | 0x1#4 => some (.jp (fieldNNN w))
  | 0x2#4 => some (.call (fieldNNN w))
  | 0x3#4 => some (.seImm (fieldX w) (fieldNN w))
  | 0x4#4 => some (.sneImm (fieldX w) (fieldNN w))
  | 0x5#4 => if fieldN w = 0x0#4 then some (.seReg (fieldX w) (fieldY w)) else none
  | 0x6#4 => some (.ldImm (fieldX w) (fieldNN w))
  | 0x7#4 => some (.addImm (fieldX w) (fieldNN w))
  | 0x8#4 =>
    match fieldN w with
    | 0x0#4 => some (.ldReg (fieldX w) (fieldY w))
    | 0x1#4 => some (.orReg (fieldX w) (fieldY w))
    | 0x2#4 => some (.andReg (fieldX w) (fieldY w))
    | 0x3#4 => some (.xorReg (fieldX w) (fieldY w))
    | 0x4#4 => some (.addReg (fieldX w) (fieldY w))
    | 0x5#4 => some (.subReg (fieldX w) (fieldY w))
    | 0x6#4 => some (.shrReg (fieldX w) (fieldY w))
    | 0x7#4 => some (.subnReg (fieldX w) (fieldY w))
    | 0xE#4 => some (.shlReg (fieldX w) (fieldY w))
    | _ => none
  | 0x9#4 => if fieldN w = 0x0#4 then some (.sneReg (fieldX w) (fieldY w)) else none
  | 0xA#4 => some (.ldIndex (fieldNNN w))
  | 0xB#4 => some (.jpV0 (fieldX w) (fieldNNN w))
  | 0xC#4 => some (.rnd (fieldX w) (fieldNN w))
  | 0xD#4 => some (.drw (fieldX w) (fieldY w) (fieldN w))
  | 0xE#4 =>
    match fieldNN w with
    | 0x9E#8 => some (.skp (fieldX w))
    | 0xA1#8 => some (.sknp (fieldX w))
    | _ => none
  | 0xF#4 =>
    match fieldNN w with
    | 0x07#8 => some (.ldFromDelay (fieldX w))
    | 0x0A#8 => some (.ldKey (fieldX w))
    | 0x15#8 => some (.ldDelay (fieldX w))
    | 0x18#8 => some (.ldSound (fieldX w))
    | 0x1E#8 => some (.addIndex (fieldX w))
    | 0x29#8 => some (.ldFont (fieldX w))
    | 0x33#8 => some (.ldBcd (fieldX w))
    | 0x55#8 => some (.storeRegs (fieldX w))
    | 0x65#8 => some (.loadRegs (fieldX w))
    | _ => none
  | _ => none

/-- Why bytes are no instruction. -/
inductive Reject where
  /-- the word matches no row of the opcode map: `UNKNOWN` (30_encoding R75); the step runs it as a reported no-op -/
  | unknown (w : Word)
  /-- fewer than the two bytes of an instruction (R70); the fetch never hands the decoder such a list -/
  | truncated (bytes : List Byte)
deriving DecidableEq, Repr

/-- The word of two bytes: the byte at the lower address is `w[15:8]` (20_memory R51). -/
def wordOfBytes (hi lo : Byte) : Word := hi ++ lo

/-- The instruction at the head of a list of bytes, with the bytes after it (30_encoding R70, R73; 20_memory R51). -/
def decode : List Byte → Except Reject (Instr × List Byte)
  | hi :: lo :: rest =>
    match decodeWord (wordOfBytes hi lo) with
    | some i => .ok (i, rest)
    | none => .error (.unknown (wordOfBytes hi lo))
  | bytes => .error (.truncated bytes)

/-! ### The encoder -/

/-- Format NNN of 30_encoding R71, bit 15 first. -/
def wordNNN (family : BitVec 4) (nnn : Imm12) : Word := family ++ nnn

/-- Formats XNN and X of 30_encoding R71 (format X has a fixed low byte), bit 15 first. -/
def wordXNN (family : BitVec 4) (x : Reg) (nn : Imm8) : Word := family ++ x ++ nn

/-- Formats XYN and XY of 30_encoding R71 (format XY has a fixed low nibble), bit 15 first. -/
def wordXYN (family : BitVec 4) (x y : Reg) (n : Imm4) : Word := family ++ x ++ y ++ n

/-- The word of an instruction, from the formats of 30_encoding R71 and the rows of R74. -/
def encode : Instr → Word
  | .cls => 0x00E0#16
  | .ret => 0x00EE#16
  | .jp nnn => wordNNN 0x1#4 nnn
  | .call nnn => wordNNN 0x2#4 nnn
  | .seImm x nn => wordXNN 0x3#4 x nn
  | .sneImm x nn => wordXNN 0x4#4 x nn
  | .seReg x y => wordXYN 0x5#4 x y 0x0#4
  | .ldImm x nn => wordXNN 0x6#4 x nn
  | .addImm x nn => wordXNN 0x7#4 x nn
  | .ldReg x y => wordXYN 0x8#4 x y 0x0#4
  | .orReg x y => wordXYN 0x8#4 x y 0x1#4
  | .andReg x y => wordXYN 0x8#4 x y 0x2#4
  | .xorReg x y => wordXYN 0x8#4 x y 0x3#4
  | .addReg x y => wordXYN 0x8#4 x y 0x4#4
  | .subReg x y => wordXYN 0x8#4 x y 0x5#4
  | .subnReg x y => wordXYN 0x8#4 x y 0x7#4
  | .shrReg x y => wordXYN 0x8#4 x y 0x6#4
  | .shlReg x y => wordXYN 0x8#4 x y 0xE#4
  | .sneReg x y => wordXYN 0x9#4 x y 0x0#4
  | .ldIndex nnn => wordNNN 0xA#4 nnn
  | .jpV0 _ nnn => wordNNN 0xB#4 nnn
  | .rnd x nn => wordXNN 0xC#4 x nn
  | .drw x y n => wordXYN 0xD#4 x y n
  | .skp x => wordXNN 0xE#4 x 0x9E#8
  | .sknp x => wordXNN 0xE#4 x 0xA1#8
  | .ldFromDelay x => wordXNN 0xF#4 x 0x07#8
  | .ldDelay x => wordXNN 0xF#4 x 0x15#8
  | .ldSound x => wordXNN 0xF#4 x 0x18#8
  | .addIndex x => wordXNN 0xF#4 x 0x1E#8
  | .ldKey x => wordXNN 0xF#4 x 0x0A#8
  | .ldFont x => wordXNN 0xF#4 x 0x29#8
  | .ldBcd x => wordXNN 0xF#4 x 0x33#8
  | .storeRegs x => wordXNN 0xF#4 x 0x55#8
  | .loadRegs x => wordXNN 0xF#4 x 0x65#8

/-- The bytes of a word as they stand in memory, the first at the lowest address (20_memory R51). -/
def bytesOfWord (w : Word) : List Byte := [w.extractLsb' 8 8, w.extractLsb' 0 8]

/-! ### The opcode map as rows -/

/-- A row of 30_encoding R74: a word w selects it when `(w & mask) == match`. -/
structure OpcodeRow where
  bits : Word
  mask : Word
deriving DecidableEq, Repr

/-- The word selects the row. -/
def OpcodeRow.selects (r : OpcodeRow) (w : Word) : Bool := w &&& r.mask == r.bits

/-- The row an instruction belongs to, its `match` and `mask` as 30_encoding R74 prints them. -/
def Instr.row : Instr → OpcodeRow
  | .cls => ⟨0x00E0#16, 0xFFFF#16⟩
  | .ret => ⟨0x00EE#16, 0xFFFF#16⟩
  | .jp _ => ⟨0x1000#16, 0xF000#16⟩
  | .call _ => ⟨0x2000#16, 0xF000#16⟩
  | .seImm _ _ => ⟨0x3000#16, 0xF000#16⟩
  | .sneImm _ _ => ⟨0x4000#16, 0xF000#16⟩
  | .seReg _ _ => ⟨0x5000#16, 0xF00F#16⟩
  | .ldImm _ _ => ⟨0x6000#16, 0xF000#16⟩
  | .addImm _ _ => ⟨0x7000#16, 0xF000#16⟩
  | .ldReg _ _ => ⟨0x8000#16, 0xF00F#16⟩
  | .orReg _ _ => ⟨0x8001#16, 0xF00F#16⟩
  | .andReg _ _ => ⟨0x8002#16, 0xF00F#16⟩
  | .xorReg _ _ => ⟨0x8003#16, 0xF00F#16⟩
  | .addReg _ _ => ⟨0x8004#16, 0xF00F#16⟩
  | .subReg _ _ => ⟨0x8005#16, 0xF00F#16⟩
  | .subnReg _ _ => ⟨0x8007#16, 0xF00F#16⟩
  | .shrReg _ _ => ⟨0x8006#16, 0xF00F#16⟩
  | .shlReg _ _ => ⟨0x800E#16, 0xF00F#16⟩
  | .sneReg _ _ => ⟨0x9000#16, 0xF00F#16⟩
  | .ldIndex _ => ⟨0xA000#16, 0xF000#16⟩
  | .jpV0 _ _ => ⟨0xB000#16, 0xF000#16⟩
  | .rnd _ _ => ⟨0xC000#16, 0xF000#16⟩
  | .drw _ _ _ => ⟨0xD000#16, 0xF000#16⟩
  | .skp _ => ⟨0xE09E#16, 0xF0FF#16⟩
  | .sknp _ => ⟨0xE0A1#16, 0xF0FF#16⟩
  | .ldFromDelay _ => ⟨0xF007#16, 0xF0FF#16⟩
  | .ldDelay _ => ⟨0xF015#16, 0xF0FF#16⟩
  | .ldSound _ => ⟨0xF018#16, 0xF0FF#16⟩
  | .addIndex _ => ⟨0xF01E#16, 0xF0FF#16⟩
  | .ldKey _ => ⟨0xF00A#16, 0xF0FF#16⟩
  | .ldFont _ => ⟨0xF029#16, 0xF0FF#16⟩
  | .ldBcd _ => ⟨0xF033#16, 0xF0FF#16⟩
  | .storeRegs _ => ⟨0xF055#16, 0xF0FF#16⟩
  | .loadRegs _ => ⟨0xF065#16, 0xF0FF#16⟩

/-- One instruction of each row of 30_encoding R74, rows 1 to 18 in its order. -/
def mapInstrsLow : List Instr :=
  [.cls, .ret, .jp 0, .call 0, .seImm 0 0, .sneImm 0 0, .seReg 0 0, .ldImm 0 0, .addImm 0 0,
   .ldReg 0 0, .orReg 0 0, .andReg 0 0, .xorReg 0 0, .addReg 0 0, .subReg 0 0, .subnReg 0 0, .shrReg 0 0, .shlReg 0 0]

/-- One instruction of each row of 30_encoding R74, rows 19 to 34 in its order. -/
def mapInstrsHigh : List Instr :=
  [.sneReg 0 0, .ldIndex 0, .jpV0 0 0, .rnd 0 0, .drw 0 0 0, .skp 0, .sknp 0,
   .ldFromDelay 0, .ldDelay 0, .ldSound 0, .addIndex 0, .ldKey 0, .ldFont 0, .ldBcd 0, .storeRegs 0, .loadRegs 0]

/-- The opcode map: the 34 rows of 30_encoding R74. -/
def opcodeMap : List OpcodeRow := (mapInstrsLow ++ mapInstrsHigh).map Instr.row

/-! ### The host's reading of a table word -/

/-- The 16 bits of an instruction given as the opcode table numbers them: bits from `nbits` up are 0. -/
def tableWord (nbits w : Nat) : Word := BitVec.ofNat 16 (w % 2 ^ nbits)

/-- The instruction the decoder reads from the bytes of a table word laid out as the hardware stores them. -/
def decodeTableWord (nbits w : Nat) : Option Instr :=
  match decode (bytesOfWord (tableWord nbits w)) with
  | .ok (i, _) => some i
  | .error _ => none

end Sys2Proof
end

