-- ==== Sys2Proof/Config.lean ====
section
/-! DEFINITION. The static inputs of a run (00_scope R6, R7, R9; 40_core_cycle R100 `Config`), and the free
values: what the environment supplies, about which nothing is known. -/

namespace Sys2Proof

/-- The Quirk Configuration, "an immutable record of boolean toggles" (10_state R37). No default exists. -/
structure Quirks where
  vfReset : Bool
  memoryIncrement : Bool
  displayWait : Bool
  clipping : Bool
  shiftingSource : Bool
  jumpingWithRegister : Bool
deriving DecidableEq, Repr

/-- What is fixed for a run. It stands in the state so that a statement about every state is one about every
configuration; no step changes it (70_reset R251). See notes/assumptions/4.md. -/
structure Config where
  /-- the six toggles -/
  quirks : Quirks
  /-- `ROM_LEN`; a longer ROM is outside the contract (93 U9) and cannot be written down -/
  romLen : Fin 3585
  /-- `FONT`, a parameter (20_memory R57) -/
  font : Vector Byte 80
  /-- `MEMINC(X)`, a parameter (43_index_memory R157) -/
  memInc : Vector Word 16
  /-- `KEY_RECENCY_WINDOW` in ticks, an OPEN parameter, greater than 0 (00_scope R9) -/
  keyWindow : Nat
deriving DecidableEq, Repr

/-! ### Free values (notes/assumptions/2.md, 6.md)

`k` numbers the core cycles that sampled their inputs. -/

/-- How much `now` grows before the sample `k + 1`: the spacing of cycles is decided outside the block, and
`now` never decreases (00_scope R8, 93 U11). DESIGN CHOICE of form, a free value. -/
opaque Config.elapsed : Nat → Nat

/-- `keys_down` of sample `k + 1` (00_scope R7). A free value. -/
opaque Config.keysDown : Nat → BitVec 16

/-- `rand` of sample `k + 1`: "a free 8-bit input of the step, ... under no law" (42_alu R143). A free value. -/
opaque Config.rand : Nat → Byte

/-- One less than the `KEY_RECENCY_WINDOW` of the reset configuration: the spec chooses no value (D11). A free value. -/
opaque Config.keyWindowPred : Nat

end Sys2Proof
end

