-- ==== Sys2Proof/Machine/Defaults.lean ====
section
/-! DEFINITION. The values the reset state takes for the static inputs: the customary font (20_memory R57, marked
there as general knowledge), `MEMINC` (43_index_memory R157), and the model's choices for what has no default. -/

namespace Sys2Proof.Machine

/-- The customary glyphs 0 to 7, five row bytes each (20_memory R57). PRESUMED: notes/assumptions/8.md. -/
def fontLow : List Byte :=
  [0xF0, 0x90, 0x90, 0x90, 0xF0, 0x20, 0x60, 0x20, 0x20, 0x70] ++
  [0xF0, 0x10, 0xF0, 0x80, 0xF0, 0xF0, 0x10, 0xF0, 0x10, 0xF0] ++
  [0x90, 0x90, 0xF0, 0x10, 0x10, 0xF0, 0x80, 0xF0, 0x10, 0xF0] ++
  [0xF0, 0x80, 0xF0, 0x90, 0xF0, 0xF0, 0x10, 0x20, 0x40, 0x40]

/-- The customary glyphs 8 to F (20_memory R57). PRESUMED: notes/assumptions/8.md. -/
def fontHigh : List Byte :=
  [0xF0, 0x90, 0xF0, 0x90, 0xF0, 0xF0, 0x90, 0xF0, 0x10, 0xF0] ++
  [0xF0, 0x90, 0xF0, 0x90, 0x90, 0xE0, 0x90, 0xE0, 0x90, 0xE0] ++
  [0xF0, 0x80, 0x80, 0x80, 0xF0, 0xE0, 0x90, 0x90, 0x90, 0xE0] ++
  [0xF0, 0x80, 0xF0, 0x80, 0xF0, 0xF0, 0x80, 0xF0, 0x80, 0x80]

/-- The 80 bytes of 20_memory R57 as the parameter `FONT`. -/
def customaryFont : Vector Byte 80 := ⟨(fontLow ++ fontHigh).toArray, rfl⟩

/-- All six toggles off. DESIGN CHOICE (the spec gives no default): notes/assumptions/5.md. -/
def quirksOff : Quirks := ⟨false, false, false, false, false, false⟩

/-- The configuration of `State.reset`: toggles off, no ROM, the customary font, `MEMINC(X) = 1`, a free window. -/
def resetConfig : Config where
  quirks := quirksOff
  romLen := 0
  font := customaryFont
  memInc := Vector.replicate 16 1
  keyWindow := Config.keyWindowPred + 1

end Sys2Proof.Machine
end

