-- ==== Sys2Proof/Machine/State.lean ====
section
/-! DEFINITION. The state of the core as plain data (10_state R20), the reasons a step could stop, and reset (70_reset R250). -/

namespace Sys2Proof.Machine

/-- Memory as the cells that differ from the reset contents, in the canonical form of `Memory.wf` (10_state R21). -/
abbrev Memory := List Host.Cell

/-- The bitmap, row y of 64 cells, bit x of a row is column x (10_state R30; 93 section 2 leaves the shape open). -/
abbrev Display := Vector (BitVec 64) 32

/-- The inputs a core cycle samples (00_scope R7). The MODEL's own part of the state: notes/assumptions/2.md. -/
structure Inputs where
  /-- monotonic time in ticks, unbounded (D2) -/
  now : Nat
  /-- bit k is 1 when key k is physically down -/
  keysDown : BitVec 16
  /-- what `random_byte()` returns in this cycle -/
  rand : Byte
deriving DecidableEq, Repr

/-- The outputs of the last core cycle that are not functions of the rest of the state (00_scope R7, 40_core_cycle R100).
The MODEL's own part of the state: notes/assumptions/14.md. -/
structure Outputs where
  /-- `render_req`; `some d` is a pulse, d being `display_dirty` as the renderer saw it (60_exceptions R225) -/
  render : Option Bool
  /-- `tone` (60_exceptions R233) -/
  tone : Bool
  /-- `rep_unknown` with `rep_unknown_word` (60_exceptions R211) -/
  unknown : Option Word
  /-- `rep_stack_overflow` (60_exceptions R212) -/
  stackOverflow : Bool
  /-- `rep_stack_underflow` (60_exceptions R213) -/
  stackUnderflow : Bool
deriving DecidableEq, Repr

/-- The whole state: the static inputs of the run, the record of 10_state R20, the inputs of the coming cycle and the
outputs of the last one. -/
structure State where
  /-- the static inputs; no step changes them -/
  cfg : Config
  /-- `memory` (R21) -/
  mem : Memory
  /-- `V` (R22) -/
  v : Vector Byte 16
  /-- `I` (R24) -/
  index : Word
  /-- `PC` (R25) -/
  pc : Word
  /-- `stack` (R26) -/
  stack : Vector Word 16
  /-- `SP`, the number of entries held, 0 to 16 (R26) -/
  sp : Fin 17
  /-- `delay_timer` (R29) -/
  delayTimer : Byte
  /-- `sound_timer` (R29) -/
  soundTimer : Byte
  /-- `display` (R30) -/
  display : Display
  /-- `display_dirty` (R31) -/
  displayDirty : Bool
  /-- `display_wait_counter` (R32) -/
  displayWaitCounter : BitVec 8
  /-- `key_last_pressed`; `none` is `NEVER` (R33) -/
  keyLastPressed : Vector (Option Nat) 16
  /-- `last_timer_update` (R34) -/
  lastTimerUpdate : Nat
  /-- `next_frame_due` (R35) -/
  nextFrameDue : Nat
  /-- `fault` with the recorded address; `none` is 0 (R36) -/
  fault : Option FaultAddr
  /-- the inputs of the coming cycle -/
  inputs : Inputs
  /-- how many input samples have been drawn: the MODEL's own counter -/
  cycle : Nat
  /-- the outputs of the last cycle -/
  out : Outputs
deriving DecidableEq, Repr

/-- The reasons an outcome `fault` could carry: NONE. The core's one fault, `AddressRangeFault`, is a state the spec
describes (`fault = 1`, 60_exceptions R214), so it is a next state of this model: notes/assumptions/1.md, 20.md. -/
inductive Fault
deriving DecidableEq, Repr

/-- The reasons an outcome `refused` could carry. -/
inductive Refusal where
  /-- raised by an arm of `exec` whose instruction has no meaning yet (safe: the run stops); no arm raises it now -/
  | notModelled (mnemonic : String)
deriving DecidableEq, Repr

/-- No strobe, no tone (70_reset R250: the outputs right after reset). -/
def Outputs.quiet : Outputs := ⟨none, false, none, false, false⟩

/-- The machine right after reset (70_reset R250): memory with nothing listed (it reads FONT and zeros), `PC = 0x200`,
every register 0, no key ever pressed. The static inputs are `resetConfig`; the inputs of the first cycle are the
model's (DESIGN CHOICE, notes/assumptions/3.md). -/
def State.reset : State where
  cfg := resetConfig
  mem := []
  v := Vector.replicate 16 0
  index := 0
  pc := 0x200
  stack := Vector.replicate 16 0
  sp := 0
  delayTimer := 0
  soundTimer := 0
  display := Vector.replicate 32 0
  displayDirty := false
  displayWaitCounter := 0
  keyLastPressed := Vector.replicate 16 none
  lastTimerUpdate := 0
  nextFrameDue := 0
  fault := none
  inputs := ⟨0, 0, 0⟩
  cycle := 0
  out := Outputs.quiet

end Sys2Proof.Machine
end

