-- ==== Sys2Proof/Machine/Memory.lean ====
section
/-! DEFINITION. Reading and writing one byte of the 4096-byte memory (20_memory R50 to R57), over its canonical form. -/

namespace Sys2Proof.Machine

/-- `MEM_SIZE` (00_scope R9). -/
def memSize : Nat := 4096

/-- `FONT_START` (00_scope R9). -/
def fontStart : Nat := 0x50

/-- `ROM_BASE` (00_scope R9). -/
def romBase : Nat := 0x200

/-- What an unlisted address reads as: the contents memory has before the ROM is loaded, FONT at 0x050..0x09F and zero
elsewhere (20_memory R57, 10_state R21). -/
def Memory.background (font : Vector Byte 80) (a : Nat) : Byte :=
  if fontStart ≤ a then (font[a - fontStart]?).getD 0 else 0

/-- The byte at an address (20_memory R53, after the range check). -/
def Memory.read (font : Vector Byte 80) : Memory → Nat → Byte
  | [], a => Memory.background font a
  | (b, w) :: rest, a => if a = b then w else Memory.read font rest a

/-- Put a byte at an address of a list in canonical form: a byte equal to the background is not listed. -/
def Memory.put (font : Vector Byte 80) : Memory → Nat → Byte → Memory
  | [], a, d => if d = Memory.background font a then [] else [(a, d)]
  | (b, w) :: rest, a, d =>
    if a < b then
      if d = Memory.background font a then (b, w) :: rest else (a, d) :: (b, w) :: rest
    else if a = b then
      if d = Memory.background font a then rest else (a, d) :: rest
    else (b, w) :: Memory.put font rest a d

/-- Write a byte (20_memory R54). An address above 4095 is never written: every caller has checked its range. -/
def Memory.write (font : Vector Byte 80) (m : Memory) (a : Nat) (d : Byte) : Memory :=
  if a < memSize then Memory.put font m a d else m

/-- Write consecutive bytes, the first at the lowest address. -/
def Memory.writeList (font : Vector Byte 80) : Memory → Nat → List Byte → Memory
  | m, _, [] => m
  | m, a, d :: rest => Memory.writeList font (Memory.write font m a d) (a + 1) rest

/-- The canonical form: addresses strictly rising, all of them below 4096, no byte equal to the background. -/
def Memory.wf (font : Vector Byte 80) (m : Memory) : Bool :=
  decide (m.Pairwise (fun c d => c.1 < d.1)) && m.all (fun c => decide (c.1 < memSize) && c.2 != Memory.background font c.1)

end Sys2Proof.Machine
end

