-- ==== Sys2Proof/Machine/Ops.lean ====
section
/-! DEFINITION. The shared operations over the state: registers, memory, stack, program counter, reports, and taking
the one fault (00_scope R12). There is no return from it (60_exceptions R219). -/

namespace Sys2Proof.Machine

/-! ### Registers (10_state R22 to R25) -/

/-- `V[i]`. -/
def State.reg (s : State) (x : Reg) : Byte := s.v[x.toNat]'x.isLt

/-- `V[i] <- d`. -/
def State.setReg (s : State) (x : Reg) (d : Byte) : State := { s with v := s.v.set x.toNat d x.isLt }

/-- `I <- d`. -/
def State.setIndex (s : State) (d : Word) : State := { s with index := d }

/-- `PC <- d`. -/
def State.setPc (s : State) (d : Word) : State := { s with pc := d }

/-- The fetch phase's advance, `PC <- PC + 2` (40_core_cycle R93). -/
def State.advancePc (s : State) : State := s.setPc (s.pc + 2)

/-- `Skip()` (41_control_flow R110). -/
def State.skip (s : State) : State := s.setPc (s.pc + 2)

/-- Skip when the condition holds. -/
def State.skipIf (s : State) (c : Bool) : State := if c then s.skip else s

/-- `Retry()` (40_core_cycle R97). -/
def State.retry (s : State) : State := s.setPc (s.pc - 2)

/-! ### Memory (20_memory R53, R54) -/

/-- The byte at an address. -/
def State.byteAt (s : State) (a : Nat) : Byte := Memory.read s.cfg.font s.mem a

/-- Store one byte. -/
def State.writeByte (s : State) (a : Nat) (d : Byte) : State := { s with mem := Memory.write s.cfg.font s.mem a d }

/-- Store consecutive bytes, the first at the lowest address, in ascending order. -/
def State.writeBytes (s : State) (a : Nat) (ds : List Byte) : State :=
  { s with mem := Memory.writeList s.cfg.font s.mem a ds }

/-! ### The range check and the fault (20_memory R52, R55; 60_exceptions R214) -/

/-- The lowest out-of-range address of the `len` consecutive bytes from `base`, if there is one; sums are mathematical. -/
def rangeFault (base len : Nat) : Option FaultAddr :=
  if 0 < len ∧ memSize < base + len then some (BitVec.ofNat 17 (max base memSize)) else none

/-- `raise AddressRangeFault(addr)`: none of the instruction's writes, and the sticky fault with its address
(00_scope R12). The step abandons the cycle (40_core_cycle R98). -/
def State.raiseAddressRangeFault (s : State) (a : FaultAddr) : State := { s with fault := some a }

/-- Check the whole range of an instruction before any of its writes (20_memory R55). -/
def State.checked (s : State) (base len : Nat) (body : State) : State :=
  match rangeFault base len with
  | some a => s.raiseAddressRangeFault a
  | none => body

/-! ### Reports (60_exceptions R210 to R213) -/

/-- `report UnknownInstruction(w)`. -/
def State.reportUnknown (s : State) (w : Word) : State := { s with out := { s.out with unknown := some w } }

/-- `report StackOverflow()`. -/
def State.reportStackOverflow (s : State) : State := { s with out := { s.out with stackOverflow := true } }

/-- `report StackUnderflow()`. -/
def State.reportStackUnderflow (s : State) : State := { s with out := { s.out with stackUnderflow := true } }

/-! ### The return stack (10_state R26 to R28) -/

/-- `Push(v)`. -/
def State.push (s : State) (d : Word) : State :=
  if h : s.sp.val < 16 then
    { s with stack := s.stack.set s.sp.val d h, sp := ⟨s.sp.val + 1, by omega⟩ }
  else s.reportStackOverflow

/-- The value `Pop()` returns: the top, or the sentinel 0 when empty. -/
def State.popped (s : State) : Word :=
  if h : 0 < s.sp.val then s.stack[s.sp.val - 1]'(by omega) else 0

/-- The state `Pop()` leaves. -/
def State.dropTop (s : State) : State :=
  if 0 < s.sp.val then { s with sp := ⟨s.sp.val - 1, by omega⟩ } else s.reportStackUnderflow

/-! ### Timers and display registers (10_state R29 to R32) -/

/-- `delay_timer <- d`. -/
def State.setDelayTimer (s : State) (d : Byte) : State := { s with delayTimer := d }

/-- `sound_timer <- d`. -/
def State.setSoundTimer (s : State) (d : Byte) : State := { s with soundTimer := d }

/-- Replace the bitmap. -/
def State.setDisplay (s : State) (d : Display) : State := { s with display := d }

/-- `display_dirty <- 1` (10_state R31). -/
def State.markDirty (s : State) : State := { s with displayDirty := true }

/-- `display_wait_counter <- d`. -/
def State.setWaitCounter (s : State) (d : BitVec 8) : State := { s with displayWaitCounter := d }

/-! ### The end of a run (40_core_cycle R91) -/

/-- The output `halted`: `PC >= 0x200 + ROM_LEN`. -/
def State.halted (s : State) : Bool := decide (romBase + s.cfg.romLen.val ≤ s.pc.toNat)

/-- The run has ended: the core executes nothing more. -/
def State.stopped (s : State) : Bool := s.fault.isSome || s.halted

end Sys2Proof.Machine
end

