-- ==== Sys2Proof/Machine/Boot.lean ====
section
/-! DEFINITION. Reset for any configuration and ROM (70_reset R250 to R252), and placing one instruction for the host. -/

namespace Sys2Proof.Machine

/-- The state after reset with static inputs `cfg` and `rom`, the first cycle's inputs being `first` (70_reset R250, R252).
The ROM has exactly `ROM_LEN` bytes and stands at 0x200 (20_memory R66). -/
def State.boot (cfg : Config) (rom : Vector Byte cfg.romLen.val) (first : Inputs) : State :=
  { State.reset with
    cfg := cfg
    mem := Memory.writeList cfg.font [] romBase rom.toList
    inputs := first }

/-- The `reset` input asserted: "nothing of a previous run survives" but the static inputs and the port samples
(70_reset R251). It is no part of a step: notes/assumptions/17.md. -/
def State.assertReset (s : State) (rom : Vector Byte s.cfg.romLen.val) : State :=
  { State.boot s.cfg rom s.inputs with cycle := s.cycle }

/-- The smallest `ROM_LEN` from `len` up whose extent holds an instruction at `pc`, within the contract's 3584. -/
def coveringRomLen (len : Fin 3585) (pc : Word) : Fin 3585 :=
  ⟨min 3584 (max len.val (pc.toNat + 2 - romBase)), by omega⟩

/-- The state with a word stored where the next fetch reads it, inside the ROM's extent and with no fault pending. -/
def State.placeWord (s : State) (w : Word) : State :=
  let t := s.writeBytes s.pc.toNat (bytesOfWord w)
  { t with cfg := { t.cfg with romLen := coveringRomLen t.cfg.romLen t.pc }, fault := none }

end Sys2Proof.Machine
end

