-- ==== Sys2Proof/Machine/Flags.lean ====
section
/-! DEFINITION. Every flag computation: the values written to `VF` (10_state R23), and the write itself, last (42_alu R140). -/

namespace Sys2Proof.Machine

/-- A flag value is the 8-bit 0x00 or 0x01 (10_state R23). -/
def flagByte (b : Bool) : Byte := if b then 0x01 else 0x00

/-- `8XY4`: the mathematical sum exceeds 255 (42_alu R136). -/
def carryFlag (a b : Byte) : Byte := flagByte (decide (255 < a.toNat + b.toNat))

/-- `8XY5`, `8XY7`: the not-borrow of minuend and subtrahend (42_alu R137, R138, R142 d). -/
def notBorrowFlag (minuend subtrahend : Byte) : Byte := flagByte (decide (subtrahend.toNat ≤ minuend.toNat))

/-- `8XY6`: bit 0 of the source before the shift (42_alu R139). -/
def shiftRightFlag (src : Byte) : Byte := zext8 (src.extractLsb' 0 1)

/-- `8XYE`: bit 7 of the source before the shift (42_alu R141). -/
def shiftLeftFlag (src : Byte) : Byte := zext8 (src.extractLsb' 7 1)

/-- `DXYN`: 1 when an on pixel was turned off (44_display R172). -/
def collisionFlag (hit : Bool) : Byte := flagByte hit

/-- Result to `V[X]`, then flag to `VF`: with X = 15 the flag stays (42_alu R140). -/
def State.writeResultFlag (s : State) (x : Reg) (result flag : Byte) : State := (s.setReg x result).setReg VF flag

/-- `8XY1`, `8XY2`, `8XY3`: result to `V[X]`, then `VF <- 0` when `vf_reset` is on (42_alu R133 to R135). -/
def State.writeLogic (s : State) (x : Reg) (result : Byte) : State :=
  if s.cfg.quirks.vfReset then s.writeResultFlag x result 0x00 else s.setReg x result

end Sys2Proof.Machine
end

