-- ==== Sys2Proof/Machine/Operands.lean ====
section
/-! DEFINITION. Every operand form: addresses, jump targets, shift sources, sprite coordinates, decimal digits. -/

namespace Sys2Proof.Machine

/-- The target of `1NNN`, `2NNN` and the value of `ANNN`: `zext_16(NNN)` (30_encoding R72). -/
def immAddress (nnn : Imm12) : Word := zext16 nnn

/-- The target of `BNNN`: `NNN + V[0]`, or `NNN + V[X]` with `jumping_with_register` on, unmasked (41_control_flow R118). -/
def State.jumpTarget (s : State) (x : Reg) (nnn : Imm12) : Word :=
  if s.cfg.quirks.jumpingWithRegister then zext16 nnn + zext16 (s.reg x) else zext16 nnn + zext16 (s.reg 0)

/-- The source of a shift: `V[Y]` in legacy mode, `V[X]` with `shifting_source` on (42_alu R139, R141). -/
def State.shiftSource (s : State) (x y : Reg) : Byte :=
  if s.cfg.quirks.shiftingSource then s.reg x else s.reg y

/-- The base of the only data addressing mode, `EA(i) = I + i`, a mathematical sum (43_index_memory R154). -/
def State.dataBase (s : State) : Nat := s.index.toNat

/-- The address of a font glyph, `0x0050 + 5 * zext_16(V[X])`, no mask (43_index_memory R152, D18). -/
def glyphAddress (d : Byte) : Word := BitVec.ofNat 16 fontStart + 5 * zext16 d

/-- Hundreds, tens and units of a byte (43_index_memory R153). -/
def decimalDigits (d : Byte) : List Byte :=
  [BitVec.ofNat 8 (d.toNat / 100), BitVec.ofNat 8 (d.toNat / 10 % 10), BitVec.ofNat 8 (d.toNat % 10)]

/-- `MEMINC(X)` of this run's configuration (43_index_memory R157). -/
def memIncOf (c : Config) (x : Reg) : Word := c.memInc[x.toNat]'x.isLt

/-- The step of `I` after `FX55` and `FX65`, modulo 2^16, when `memory_increment` is on (43_index_memory R155, R156). -/
def State.bumpIndex (s : State) (x : Reg) : State :=
  if s.cfg.quirks.memoryIncrement then s.setIndex (s.index + memIncOf s.cfg x) else s

/-- `V[0]` up to `V[k-1]`, in ascending order. -/
def State.firstRegs (s : State) : Nat → List Byte
  | 0 => []
  | k + 1 => s.firstRegs k ++ [s.reg (BitVec.ofNat 4 k)]

/-- `V[0] .. V[k-1] <- memory[base] ..`, in ascending order (43_index_memory R156). -/
def State.loadFirstRegs (s : State) (base : Nat) : Nat → State
  | 0 => s
  | k + 1 => (s.loadFirstRegs base k).setReg (BitVec.ofNat 4 k) (s.byteAt (base + k))

/-- `x0 = V[X] & 63` (44_display R172). -/
def State.spriteX (s : State) (x : Reg) : Nat := (s.reg x &&& 63).toNat

/-- `y0 = V[Y] & 31` (44_display R172). -/
def State.spriteY (s : State) (y : Reg) : Nat := (s.reg y &&& 31).toNat

end Sys2Proof.Machine
end

