-- ==== Sys2Proof/Machine/Alu.lean ====
section
/-! DEFINITION. Register load, arithmetic, logic, shift and random (42_alu). Operands are read first, the result is
written, the flag last (R140). -/

namespace Sys2Proof.Machine

/-- `6XNN` `LD Vx, NN` (R130). -/
def execLdImm (x : Reg) (nn : Imm8) (s : State) : Host.Outcome State Fault Refusal := .next (s.setReg x nn)

/-- `7XNN` `ADD Vx, NN` (R131): no flag. -/
def execAddImm (x : Reg) (nn : Imm8) (s : State) : Host.Outcome State Fault Refusal :=
  .next (s.setReg x (s.reg x + nn))

/-- `8XY0` `LD Vx, Vy` (R132). -/
def execLdReg (x y : Reg) (s : State) : Host.Outcome State Fault Refusal := .next (s.setReg x (s.reg y))

/-- `8XY1` `OR Vx, Vy` (R133). -/
def execOrReg (x y : Reg) (s : State) : Host.Outcome State Fault Refusal :=
  .next (s.writeLogic x (s.reg x ||| s.reg y))

/-- `8XY2` `AND Vx, Vy` (R134). -/
def execAndReg (x y : Reg) (s : State) : Host.Outcome State Fault Refusal :=
  .next (s.writeLogic x (s.reg x &&& s.reg y))

/-- `8XY3` `XOR Vx, Vy` (R135). -/
def execXorReg (x y : Reg) (s : State) : Host.Outcome State Fault Refusal :=
  .next (s.writeLogic x (s.reg x ^^^ s.reg y))

/-- `8XY4` `ADD Vx, Vy` (R136). -/
def execAddReg (x y : Reg) (s : State) : Host.Outcome State Fault Refusal :=
  .next (s.writeResultFlag x (s.reg x + s.reg y) (carryFlag (s.reg x) (s.reg y)))

/-- `8XY5` `SUB Vx, Vy` (R137). -/
def execSubReg (x y : Reg) (s : State) : Host.Outcome State Fault Refusal :=
  .next (s.writeResultFlag x (s.reg x - s.reg y) (notBorrowFlag (s.reg x) (s.reg y)))

/-- `8XY7` `SUBN Vx, Vy` (R138). -/
def execSubnReg (x y : Reg) (s : State) : Host.Outcome State Fault Refusal :=
  .next (s.writeResultFlag x (s.reg y - s.reg x) (notBorrowFlag (s.reg y) (s.reg x)))

/-- `8XY6` `SHR Vx, Vy` (R139). -/
def execShrReg (x y : Reg) (s : State) : Host.Outcome State Fault Refusal :=
  .next (s.writeResultFlag x (s.shiftSource x y >>> 1) (shiftRightFlag (s.shiftSource x y)))

/-- `8XYE` `SHL Vx, Vy` (R141). -/
def execShlReg (x y : Reg) (s : State) : Host.Outcome State Fault Refusal :=
  .next (s.writeResultFlag x (s.shiftSource x y <<< 1) (shiftLeftFlag (s.shiftSource x y)))

/-- `CXNN` `RND Vx, NN` (R143): `rand` is this cycle's free sample. -/
def execRnd (x : Reg) (nn : Imm8) (s : State) : Host.Outcome State Fault Refusal :=
  .next (s.setReg x (s.inputs.rand &&& nn))

end Sys2Proof.Machine
end

