-- ==== Sys2Proof/Machine/Control.lean ====
section
/-! DEFINITION. Control flow (41_control_flow). In every meaning `PC` is already the address of the following
instruction (40_core_cycle R93). -/

namespace Sys2Proof.Machine

/-- `00EE` `RET` (R111): `PC <- Pop()`; on an empty stack that is 0, with the underflow reported. -/
def execRet (s : State) : Host.Outcome State Fault Refusal := .next (s.dropTop.setPc s.popped)

/-- `1NNN` `JP NNN` (R112). -/
def execJp (nnn : Imm12) (s : State) : Host.Outcome State Fault Refusal := .next (s.setPc (immAddress nnn))

/-- `2NNN` `CALL NNN` (R113): the jump is taken whether or not the push was rejected. -/
def execCall (nnn : Imm12) (s : State) : Host.Outcome State Fault Refusal :=
  .next ((s.push s.pc).setPc (immAddress nnn))

/-- `3XNN` `SE Vx, NN` (R114). -/
def execSeImm (x : Reg) (nn : Imm8) (s : State) : Host.Outcome State Fault Refusal :=
  .next (s.skipIf (s.reg x == nn))

/-- `4XNN` `SNE Vx, NN` (R115). -/
def execSneImm (x : Reg) (nn : Imm8) (s : State) : Host.Outcome State Fault Refusal :=
  .next (s.skipIf (s.reg x != nn))

/-- `5XY0` `SE Vx, Vy` (R116). -/
def execSeReg (x y : Reg) (s : State) : Host.Outcome State Fault Refusal :=
  .next (s.skipIf (s.reg x == s.reg y))

/-- `9XY0` `SNE Vx, Vy` (R117). -/
def execSneReg (x y : Reg) (s : State) : Host.Outcome State Fault Refusal :=
  .next (s.skipIf (s.reg x != s.reg y))

/-- `BNNN` `JP V0, NNN` (R118). -/
def execJpV0 (x : Reg) (nnn : Imm12) (s : State) : Host.Outcome State Fault Refusal :=
  .next (s.setPc (s.jumpTarget x nnn))

/-- `UNKNOWN`, every word of no row (40_core_cycle R96): a reported no-op. -/
def execUnknown (w : Word) (s : State) : Host.Outcome State Fault Refusal := .next (s.reportUnknown w)

end Sys2Proof.Machine
end

