-- ==== Sys2Proof/Machine/Keys.lean ====
section
/-! DEFINITION. The key that counts as currently pressed (60_exceptions R230, R231). -/

namespace Sys2Proof.Machine

/-- `t_max`: the newest of the recorded times, `none` when every key is `NEVER` (60_exceptions R230). -/
def newestPress : List (Option Nat) → Option Nat
  | [] => none
  | none :: rest => newestPress rest
  | some t :: rest =>
    match newestPress rest with
    | none => some t
    | some u => some (max t u)

/-- The smallest index that holds the time `t`, counting from `k` (60_exceptions R230; the lowest key on a tie, D10,
notes/assumptions/13.md). -/
def firstPressedAt (t : Nat) : List (Option Nat) → Nat → Option Reg
  | [], _ => none
  | e :: rest, k => if e = some t then some (BitVec.ofNat 4 k) else firstPressedAt t rest (k + 1)

/-- `CurrentKey(now)` (60_exceptions R230), with `now` the sample of this cycle. -/
def State.currentKey (s : State) : Option (BitVec 4) :=
  match newestPress s.keyLastPressed.toList with
  | none => none
  | some t =>
    if s.inputs.now - t ≤ s.cfg.keyWindow then firstPressedAt t s.keyLastPressed.toList 0 else none

/-- `IsPressed(K, now)` for an 8-bit K: false for K above 15 (60_exceptions R231). -/
def State.isPressed (s : State) (key : Byte) : Bool :=
  match s.currentKey with
  | none => false
  | some k => zext8 k == key

end Sys2Proof.Machine
end

