-- ==== Sys2Proof/Machine/Devices.lean ====
section
/-! DEFINITION. Key and timer instructions (45_keys_timers). They see the key table the earlier cycles left. -/

namespace Sys2Proof.Machine

/-- `EX9E` `SKP Vx` (R190). -/
def execSkp (x : Reg) (s : State) : Host.Outcome State Fault Refusal := .next (s.skipIf (s.isPressed (s.reg x)))

/-- `EXA1` `SKNP Vx` (R191). -/
def execSknp (x : Reg) (s : State) : Host.Outcome State Fault Refusal := .next (s.skipIf (!s.isPressed (s.reg x)))

/-- `FX0A` `LD Vx, K` (R192): retry while no key is currently pressed. -/
def execLdKey (x : Reg) (s : State) : Host.Outcome State Fault Refusal :=
  .next (match s.currentKey with
    | some k => s.setReg x (zext8 k)
    | none => s.retry)

/-- `FX07` `LD Vx, DT` (R193). -/
def execLdFromDelay (x : Reg) (s : State) : Host.Outcome State Fault Refusal := .next (s.setReg x s.delayTimer)

/-- `FX15` `LD DT, Vx` (R194). -/
def execLdDelay (x : Reg) (s : State) : Host.Outcome State Fault Refusal := .next (s.setDelayTimer (s.reg x))

/-- `FX18` `LD ST, Vx` (R195). -/
def execLdSound (x : Reg) (s : State) : Host.Outcome State Fault Refusal := .next (s.setSoundTimer (s.reg x))

end Sys2Proof.Machine
end

