-- ==== Sys2Proof/Machine/Index.lean ====
section
/-! DEFINITION. Index register and memory (43_index_memory). -/

namespace Sys2Proof.Machine

/-- `ANNN` `LD I, NNN` (R150). -/
def execLdIndex (nnn : Imm12) (s : State) : Host.Outcome State Fault Refusal := .next (s.setIndex (immAddress nnn))

/-- `FX1E` `ADD I, Vx` (R151): 16-bit wrap-around, no flag. -/
def execAddIndex (x : Reg) (s : State) : Host.Outcome State Fault Refusal :=
  .next (s.setIndex (s.index + zext16 (s.reg x)))

/-- `FX29` `LD F, Vx` (R152). -/
def execLdFont (x : Reg) (s : State) : Host.Outcome State Fault Refusal := .next (s.setIndex (glyphAddress (s.reg x)))

/-- `FX33` `LD B, Vx` (R153). -/
def execLdBcd (x : Reg) (s : State) : Host.Outcome State Fault Refusal :=
  .next (s.checked s.dataBase 3 (s.writeBytes s.dataBase (decimalDigits (s.reg x))))

/-- `FX55` `LD [I], Vx` (R155). -/
def execStoreRegs (x : Reg) (s : State) : Host.Outcome State Fault Refusal :=
  .next (s.checked s.dataBase (x.toNat + 1)
    ((s.writeBytes s.dataBase (s.firstRegs (x.toNat + 1))).bumpIndex x))

/-- `FX65` `LD Vx, [I]` (R156). -/
def execLoadRegs (x : Reg) (s : State) : Host.Outcome State Fault Refusal :=
  .next (s.checked s.dataBase (x.toNat + 1) ((s.loadFirstRegs s.dataBase (x.toNat + 1)).bumpIndex x))

end Sys2Proof.Machine
end

