-- ==== Sys2Proof/Machine/Screen.lean ====
section
/-! DEFINITION. Display (44_display): clear, and the sprite draw with deferral, clipping or wrapping, and collision. -/

namespace Sys2Proof.Machine

/-- The cell in row y and column x (44_display R170). -/
def Display.cell (d : Display) (y : Fin 32) (x : Fin 64) : Bool := d[y].getLsbD x.val

/-- Toggle one cell. -/
def Display.flip (d : Display) (y : Fin 32) (x : Fin 64) : Display :=
  d.set y.val (d[y] ^^^ BitVec.twoPow 64 x.val) y.isLt

/-- A draw in progress: the bitmap, and whether an on pixel has been turned off. -/
structure Canvas where
  display : Display
  hit : Bool
deriving DecidableEq, Repr

/-- Exclusive-or of one set pixel: an on pixel goes off and is a collision, an off pixel goes on (44_display R173). -/
def Canvas.plot (c : Canvas) (y : Fin 32) (x : Fin 64) : Canvas :=
  ⟨Display.flip c.display y x, c.hit || Display.cell c.display y x⟩

/-- The display row of a sprite row: skipped beyond row 31 with clipping on, else modulo 32 (44_display R173). -/
def targetRow (clipping : Bool) (row : Nat) : Option (Fin 32) :=
  if clipping && decide (31 < row) then none else some ⟨row % 32, Nat.mod_lt _ (by decide)⟩

/-- The display column of a sprite column: skipped beyond column 63 with clipping on, else modulo 64 (44_display R173). -/
def targetCol (clipping : Bool) (col : Nat) : Option (Fin 64) :=
  if clipping && decide (63 < col) then none else some ⟨col % 64, Nat.mod_lt _ (by decide)⟩

/-- Columns 0 to k-1 of one sprite row, ascending; bit 7 of the byte is the leftmost pixel (44_display R170, R173). -/
def drawCols (clipping : Bool) (y : Fin 32) (x0 : Nat) (bits : Byte) : Nat → Canvas → Canvas
  | 0, c => c
  | j + 1, c =>
    let done := drawCols clipping y x0 bits j c
    match targetCol clipping (x0 + j) with
    | none => done
    | some x => if bits.getLsbD (7 - j) then done.plot y x else done

/-- `DrawRows`: sprite rows 0 to k-1, ascending, sprite byte i read at `base + i` (44_display R173). -/
def State.drawRows (s : State) (x0 y0 base : Nat) : Nat → Canvas → Canvas
  | 0, c => c
  | i + 1, c =>
    let done := s.drawRows x0 y0 base i c
    match targetRow s.cfg.quirks.clipping (y0 + i) with
    | none => done
    | some y => drawCols s.cfg.quirks.clipping y x0 (s.byteAt (base + i)) 8 done

/-- The counter's step after a draw, when `display_wait` is on (44_display R172). -/
def State.countDraw (s : State) : State :=
  if s.cfg.quirks.displayWait then s.setWaitCounter (s.displayWaitCounter + 1) else s

/-- A draw that is not deferred and in range: pixels, `VF`, dirty flag, counter (44_display R172). -/
def State.drawSprite (s : State) (x y : Reg) (n : Imm4) : State :=
  let c := s.drawRows (s.spriteX x) (s.spriteY y) s.dataBase n.toNat ⟨s.display, false⟩
  (((s.setReg VF (collisionFlag c.hit)).setDisplay c.display).markDirty).countDraw

/-- The draw is deferred: `display_wait` is on and a sprite was drawn since the last frame (44_display R172, R176). -/
def State.drawDeferred (s : State) : Bool := s.displayWaitCounter != 0 && s.cfg.quirks.displayWait

/-- `00E0` `CLS` (R171). -/
def execCls (s : State) : Host.Outcome State Fault Refusal := .next ((s.setDisplay (Vector.replicate 32 0)).markDirty)

/-- `DXYN` `DRW Vx, Vy, N` (R172): deferral first, then the range check over all N bytes, then the draw. -/
def execDrw (x y : Reg) (n : Imm4) (s : State) : Host.Outcome State Fault Refusal :=
  .next (if s.drawDeferred then s.retry else s.checked s.dataBase n.toNat (s.drawSprite x y n))

end Sys2Proof.Machine
end

