-- ==== Sys2Proof/Machine/Phases.lean ====
section
/-! DEFINITION. What closes every core cycle that executed: timer, tone, frame and input phases (60_exceptions R221,
R225, R229, R233), and the sampling of the next cycle's inputs (the model's own). -/

namespace Sys2Proof.Machine

/-- `TICKS_PER_SECOND`: a tick is a nanosecond (00_scope R9, D2). -/
def ticksPerSecond : Nat := 1000000000

/-- `FRAME_PERIOD` in ticks, 16.6667 ms (00_scope R9). -/
def framePeriod : Nat := 16666700

/-- One step of a down-counter: never below 0 (10_state R29). -/
def countDown (t : Byte) : Byte := if 0 < t.toNat then t - 1 else t

/-- Strictly more than 1/60 s has passed since the last timer update (60_exceptions R221, D31). -/
def State.timerDue (s : State) : Bool := decide (ticksPerSecond < (s.inputs.now - s.lastTimerUpdate) * 60)

/-- `TimerPhase(now)` (60_exceptions R221). -/
def State.timerPhase (s : State) : State :=
  if s.timerDue then
    { s with
      delayTimer := countDown s.delayTimer
      soundTimer := countDown s.soundTimer
      lastTimerUpdate := s.inputs.now }
  else s

/-- `tone` is `sound_timer > 0` after the timer phase, held until the next evaluation (60_exceptions R233). -/
def State.tonePhase (s : State) : State := { s with out := { s.out with tone := decide (0 < s.soundTimer.toNat) } }

/-- A frame is due: `now >= next_frame_due` (60_exceptions R225). -/
def State.frameDue (s : State) : Bool := decide (s.nextFrameDue ≤ s.inputs.now)

/-- `FramePhase(now)` (60_exceptions R225): the renderer sees `display_dirty` as it was before the clear. -/
def State.framePhase (s : State) : State :=
  if s.frameDue then
    { s with
      displayDirty := false
      displayWaitCounter := 0
      nextFrameDue := s.inputs.now + framePeriod
      out := { s.out with render := some s.displayDirty } }
  else { s with out := { s.out with render := none } }

/-- `InputPhase(now, keys_down)` (60_exceptions R229). -/
def State.inputPhase (s : State) : State :=
  { s with
    keyLastPressed :=
      Vector.ofFn fun k : Fin 16 => if s.inputs.keysDown.getLsbD k.val then some s.inputs.now else s.keyLastPressed[k] }

/-- The samples of the next cycle: free values, `now` never decreasing (00_scope R7, R8; notes/assumptions/2.md). -/
def State.sampleInputs (s : State) : State :=
  { s with
    inputs := ⟨s.inputs.now + Config.elapsed s.cycle, Config.keysDown s.cycle, Config.rand s.cycle⟩
    cycle := s.cycle + 1 }

/-- Phases 3 to 5 in their order (40_core_cycle R90, R99), then the next samples. -/
def State.endCycle (s : State) : State := s.timerPhase.tonePhase.framePhase.inputPhase.sampleInputs

end Sys2Proof.Machine
end

