-- ==== Sys2Proof/Machine/Cycle.lean ====
section
/-! DEFINITION. The core cycle (40_core_cycle R90 to R99): halt test, fetch, advance, execute, phases; and the two
cycles that execute nothing, the idle one (R91) and the abandoned one (R98). -/

namespace Sys2Proof.Machine

/-- `Fetch()`: the big-endian word at `PC`, or the address out of range (40_core_cycle R92, 20_memory R51). -/
def State.fetch (s : State) : Except FaultAddr Word :=
  match rangeFault s.pc.toNat 2 with
  | some a => .error a
  | none => .ok (wordOfBytes (s.byteAt s.pc.toNat) (s.byteAt (s.pc.toNat + 1)))

/-- No report and no render request; `tone` is held (60_exceptions R210, R233). -/
def State.clearStrobes (s : State) : State := { s with out := { Outputs.quiet with tone := s.out.tone } }

/-- A cycle at whose top the run has ended: nothing changes (40_core_cycle R91); the strobes are low (D4). -/
def State.idleCycle (s : State) : State := s.clearStrobes

/-- A cycle whose fetch or instruction faulted: the state before it, with the fault recorded (40_core_cycle R98). -/
def State.abandonCycle (s : State) (a : FaultAddr) : State := s.clearStrobes.raiseAddressRangeFault a

/-- The state the instruction starts from: strobes low, `PC` advanced (40_core_cycle R93). -/
def State.beginExecute (s : State) : State := s.clearStrobes.advancePc

/-- `Execute(Decode(w))` (40_core_cycle R94, R96). -/
def executeWord (w : Word) (s : State) : Host.Outcome State Fault Refusal :=
  match decodeWord w with
  | some i => exec i s
  | none => execUnknown w s

/-- What follows the instruction: phases 3 to 5, or the abandoned cycle when it faulted (40_core_cycle R98, R99). -/
def State.finishCycle (before after : State) : State :=
  match after.fault with
  | some a => before.abandonCycle a
  | none => after.endCycle

/-- Phases 2 to 5 for a fetched word. -/
def State.runWord (s : State) (w : Word) : Host.Outcome State Fault Refusal :=
  match executeWord w s.beginExecute with
  | .next t => .next (s.finishCycle t)
  | .fault r => .fault r
  | .refused r => .refused r

/-- `CoreCycle` (40_core_cycle R90, R100), its inputs the samples in the state. -/
def coreCycle (s : State) : Host.Outcome State Fault Refusal :=
  if s.stopped then .next s.idleCycle
  else
    match s.fetch with
    | .error a => .next (s.abandonCycle a)
    | .ok w => s.runWord w

end Sys2Proof.Machine
end

