-- ==== Sys2Proof/Machine/Step.lean ====
section
/-! DEFINITION. One step is one core cycle (40_core_cycle R90). -/

namespace Sys2Proof.Machine

/-- One core cycle. -/
def step (s : State) : Host.Outcome State Fault Refusal := coreCycle s

/-- The state with a table word placed where `step` fetches its next instruction; it stands for the host's loading of a
program (70_reset R252, notes/assumptions/10.md). -/
def State.withFetchWord (s : State) (nbits w : Nat) : State := s.placeWord (tableWord nbits w)

end Sys2Proof.Machine
end

