-- ==== Sys2Proof/Safety.lean ====
section
/-! DEFINITION. What claims are stated in: the parts of the state and what a change leaves alone, how a run ends, and
the invariant of the machine. -/

namespace Sys2Proof.Machine

/-! ### Frames -/

/-- The parts of the state, by the rows of 10_state R20, the static inputs, the model's own input samples and counter,
and each output of 00_scope R7. -/
inductive Part where
  | config | memory | regs | index | pc | stack | delayTimer | soundTimer
  | display | displayDirty | waitCounter | keys | lastTimerUpdate | nextFrameDue | fault
  | inputs | cycle | render | tone | unknown | stackOverflow | stackUnderflow
deriving DecidableEq, Repr

/-- The part is the same in both states; memory is compared byte by byte, registers one by one. -/
def Part.same (p : Part) (s t : State) : Prop :=
  match p with
  | .config => t.cfg = s.cfg
  | .memory => ∀ a, t.byteAt a = s.byteAt a
  | .regs => ∀ r, t.reg r = s.reg r
  | .index => t.index = s.index
  | .pc => t.pc = s.pc
  | .stack => t.stack = s.stack ∧ t.sp = s.sp
  | .delayTimer => t.delayTimer = s.delayTimer
  | .soundTimer => t.soundTimer = s.soundTimer
  | .display => t.display = s.display
  | .displayDirty => t.displayDirty = s.displayDirty
  | .waitCounter => t.displayWaitCounter = s.displayWaitCounter
  | .keys => t.keyLastPressed = s.keyLastPressed
  | .lastTimerUpdate => t.lastTimerUpdate = s.lastTimerUpdate
  | .nextFrameDue => t.nextFrameDue = s.nextFrameDue
  | .fault => t.fault = s.fault
  | .inputs => t.inputs = s.inputs
  | .cycle => t.cycle = s.cycle
  | .render => t.out.render = s.out.render
  | .tone => t.out.tone = s.out.tone
  | .unknown => t.out.unknown = s.out.unknown
  | .stackOverflow => t.out.stackOverflow = s.out.stackOverflow
  | .stackUnderflow => t.out.stackUnderflow = s.out.stackUnderflow

/-- Every part outside the list is unchanged. -/
def OnlyChanges (parts : List Part) (s t : State) : Prop := ∀ p : Part, p ∉ parts → p.same s t

/-- Every register outside the list is unchanged. -/
def RegsKeptBut (rs : List Reg) (s t : State) : Prop := ∀ r : Reg, r ∉ rs → t.reg r = s.reg r

/-- The one-cycle pulses of 00_scope R7. -/
def strobes : List Part := [.render, .unknown, .stackOverflow, .stackUnderflow]

/-- No pulse. -/
def State.StrobesLow (s : State) : Prop :=
  s.out.render = none ∧ s.out.unknown = none ∧ s.out.stackOverflow = false ∧ s.out.stackUnderflow = false

/-! ### What an instruction touches -/

/-- The consecutive addresses an instruction accesses as data, base and length (20_memory R55): none for a deferred
`DXYN`, which makes no check (44_display R172). -/
def accessRange (i : Instr) (s : State) : Nat × Nat :=
  match i with
  | .ldBcd _ => (s.index.toNat, 3)
  | .storeRegs x => (s.index.toNat, x.toNat + 1)
  | .loadRegs x => (s.index.toNat, x.toNat + 1)
  | .drw _ _ n => (s.index.toNat, if s.drawDeferred then 0 else n.toNat)
  | _ => (0, 0)

/-- The registers an instruction may write, as result or flag (10_state R22, R23). -/
def mayWriteReg (i : Instr) (s : State) (r : Reg) : Bool :=
  match i with
  | .ldImm x _ | .addImm x _ | .ldReg x _ | .rnd x _ | .ldFromDelay x | .ldKey x => r == x
  | .orReg x _ | .andReg x _ | .xorReg x _ => r == x || (s.cfg.quirks.vfReset && r == VF)
  | .addReg x _ | .subReg x _ | .subnReg x _ | .shrReg x _ | .shlReg x _ => r == x || r == VF
  | .drw _ _ _ => r == VF && !s.drawDeferred
  | .loadRegs x => decide (r.toNat ≤ x.toNat)
  | _ => false

/-- The parts of the state an instruction may write ("written by", 10_state R20), the report outputs among them. -/
def mayWritePart (i : Instr) (p : Part) : Bool :=
  match i with
  | .cls => p == .display || p == .displayDirty
  | .ret => p == .pc || p == .stack || p == .stackUnderflow
  | .call _ => p == .pc || p == .stack || p == .stackOverflow
  | .jp _ | .jpV0 _ _ | .seImm _ _ | .sneImm _ _ | .seReg _ _ | .sneReg _ _ | .skp _ | .sknp _ => p == .pc
  | .ldImm _ _ | .addImm _ _ | .ldReg _ _ | .orReg _ _ | .andReg _ _ | .xorReg _ _ | .addReg _ _ | .subReg _ _
  | .subnReg _ _ | .shrReg _ _ | .shlReg _ _ | .rnd _ _ | .ldFromDelay _ => p == .regs
  | .ldKey _ => p == .regs || p == .pc
  | .ldIndex _ | .addIndex _ | .ldFont _ => p == .index
  | .ldDelay _ => p == .delayTimer
  | .ldSound _ => p == .soundTimer
  | .ldBcd _ => p == .memory || p == .fault
  | .storeRegs _ => p == .memory || p == .index || p == .fault
  | .loadRegs _ => p == .regs || p == .index || p == .fault
  | .drw _ _ _ =>
    p == .regs || p == .pc || p == .display || p == .displayDirty || p == .waitCounter || p == .fault

/-- Sprite pixel (i, j) lands on the cell in row `row` and column `col`: clipped coordinates must be the cell's own,
wrapped ones are taken modulo 32 and 64 (44_display R173). -/
def landsOn (s : State) (x y : Reg) (i j : Nat) (row : Fin 32) (col : Fin 64) : Prop :=
  let r := (s.reg y).toNat % 32 + i
  let c := (s.reg x).toNat % 64 + j
  if s.cfg.quirks.clipping then r = row.val ∧ c = col.val else r % 32 = row.val ∧ c % 64 = col.val

/-- A set bit of the sprite lands on the cell: bit `7 - j` of byte i of the N sprite bytes at `I` (44_display R170). -/
def SpriteCovers (s : State) (x y : Reg) (n : Imm4) (row : Fin 32) (col : Fin 64) : Prop :=
  ∃ i j : Nat, i < n.toNat ∧ j < 8 ∧ (s.byteAt (s.index.toNat + i)).getLsbD (7 - j) = true ∧ landsOn s x y i j row col

/-! ### Cycles -/

/-- The core cycle from `s` executed its instruction, which left `t`, without a fault, and the cycle left `u`. -/
def CycleExecutes (s t u : State) : Prop :=
  s.stopped = false ∧ t.fault = none ∧ step s = .next u ∧
    ∃ w, s.fetch = .ok w ∧ executeWord w s.beginExecute = .next t

/-! ### The end of a run -/

/-- The run ended as programs end: the halt test holds and no fault was raised (40_core_cycle R91). -/
def State.endedNormally (s : State) : Bool := s.halted && s.fault.isNone

/-- The run ended in a fault, which is "not final and not successful" (60_exceptions R214). -/
def State.endedInFault (s : State) : Bool := s.fault.isSome

/-! ### The invariant -/

/-- How many events the last cycle raised: the three reports and the fault (60_exceptions R215). -/
def State.eventCount (s : State) : Nat :=
  s.out.unknown.isSome.toNat + s.out.stackOverflow.toNat + s.out.stackUnderflow.toNat + s.fault.isSome.toNat

/-- What every step keeps. -/
structure Inv (s : State) : Prop where
  /-- memory is in its canonical form -/
  memoryCanonical : Memory.wf s.cfg.font s.mem = true
  /-- "`now >= last_timer_update` always" (60_exceptions R221) -/
  timerNotAhead : s.lastTimerUpdate ≤ s.inputs.now
  /-- no key was last pressed in the future (60_exceptions R229, 00_scope R8) -/
  keysNotAhead : ∀ (k : Fin 16) (t : Nat), s.keyLastPressed[k] = some t → t ≤ s.inputs.now
  /-- a deadline is at most one period ahead (60_exceptions R225) -/
  frameNotFar : s.nextFrameDue ≤ s.inputs.now + framePeriod
  /-- the counter "only ever holds 0 or 1" with `display_wait` on, and stays 0 with it off (10_state R32) -/
  waitCounterLegal :
    s.displayWaitCounter = 0 ∨ (s.cfg.quirks.displayWait = true ∧ s.displayWaitCounter = 1)
  /-- a recorded address is out of range and carried in 16 bits (60_exceptions R214) -/
  faultOutOfRange : ∀ a, s.fault = some a → 4096 ≤ a.toNat ∧ a.toNat ≤ 0xFFFF
  /-- "An instruction raises at most one event" (60_exceptions R217) -/
  oneEvent : s.eventCount ≤ 1

end Sys2Proof.Machine
end

