-- ==== Sys2Proof/Certificates/Slice0/Obligations.lean ====
section
/-! DEFINITION. The statements about the machine, for the provers. `exec i s` is taken at the state the instruction
starts from: `PC` is already the address of the following instruction (40_core_cycle R93). -/

open Sys2Proof Sys2Proof.Machine

/-! ### Encoding -/

/-- Decoding the bytes of an encoded well-formed instruction gives it back, whatever follows (30_encoding R71 to R74). -/
def Obligations.DecodeOfEncodeIsTheInstruction : Prop :=
  ∀ (i : Instr) (rest : List Byte), i.wf = true → decode (bytesOfWord (encode i) ++ rest) = .ok (i, rest)

/-- Bytes that decode are the encoding of a well-formed instruction: each word has one meaning (30_encoding R73, R74).
That a fixed digit is required, so that 0x5121 is no second spelling of `5XY0`, is the spec's own choice (R73, D8;
notes/assumptions/12.md). -/
def Obligations.DecodedBytesAreTheEncoding : Prop :=
  ∀ (hi lo : Byte) (rest rest' : List Byte) (i : Instr),
    decode (hi :: lo :: rest) = .ok (i, rest') → i.wf = true ∧ encode i = wordOfBytes hi lo ∧ rest' = rest

/-- A word is `UNKNOWN` exactly when it selects no row of the opcode map; a word that decodes selects its instruction's
row; no word selects two rows (30_encoding R74, R75). -/
def Obligations.DecoderAgreesWithTheOpcodeMap : Prop :=
  (∀ w : Word, decodeWord w = none ↔ ∀ r ∈ opcodeMap, r.selects w = false) ∧
  (∀ (w : Word) (i : Instr), decodeWord w = some i → i.row ∈ opcodeMap ∧ i.row.selects w = true) ∧
  (∀ (w : Word), ∀ r ∈ opcodeMap, ∀ r' ∈ opcodeMap, r.selects w = true → r'.selects w = true → r = r')

/-- Words written out by hand from the formats and rows of 30_encoding R71 and R74 (95_test_vectors E1 to E22). That
0x5121 and 0x01E0 are `UNKNOWN` is the spec's own choice, fixed digits being required (R73, D8;
notes/assumptions/12.md). -/
def Obligations.SampleWordsDecode : Prop :=
  decodeWord 0x8AB4 = some (.addReg 0xA 0xB) ∧ decodeWord 0x00EE = some .ret ∧
  decodeWord 0xD125 = some (.drw 1 2 5) ∧ decodeWord 0xFF65 = some (.loadRegs 15) ∧
  decodeWord 0xBFFF = some (.jpV0 0xF 0xFFF) ∧ decodeWord 0xE09E = some (.skp 0) ∧
  decodeWord 0x5121 = none ∧ decodeWord 0x01E0 = none ∧ decodeWord 0x0000 = none ∧ decodeWord 0xF075 = none

/-! ### The core cycle -/

/-- A step runs the decoded instruction: when the run has not ended and the two bytes at `PC`, inside memory, decode to
i, the step is `exec i` from the state with `PC + 2` and low strobes, followed by the closing phases, or by the abandoned
cycle when the instruction faulted (40_core_cycle R90 to R94, R98, R99; the fault is the spec's own choice, D5). That a
step starts and an abandoned cycle leaves the pulses low is the model's (notes/assumptions/14.md). -/
def Obligations.StepRunsTheDecodedInstruction : Prop :=
  ∀ (s : State) (i : Instr),
    s.fault = none → s.pc.toNat < 0x200 + s.cfg.romLen.val → s.pc.toNat + 1 ≤ 4095 →
    decode [s.byteAt s.pc.toNat, s.byteAt (s.pc.toNat + 1)] = .ok (i, []) →
    ∃ s₁, OnlyChanges (.pc :: strobes) s s₁ ∧ s₁.pc = s.pc + 2 ∧ s₁.StrobesLow ∧
      ∀ t, exec i s₁ = .next t →
        (t.fault = none → step s = .next t.endCycle) ∧
        (∀ a, t.fault = some a → ∃ u, step s = .next u ∧ u.fault = some a ∧ OnlyChanges (.fault :: strobes) s u)

/-- Every state has a next state: the cycle is a total function, nothing stalls and nothing is refused
(40_core_cycle R95, R100; a fault is a next state, D5 and notes/assumptions/1.md). -/
def Obligations.EveryStateSteps : Prop := ∀ s : State, ∃ t, step s = .next t

/-- A word that selects no row of the opcode map is a reported no-op, and the core goes on at the next instruction
(40_core_cycle R96; that `PC` has advanced is the spec's own inference there). -/
def Obligations.UnknownWordIsAReportedNoOp : Prop :=
  ∀ w : Word, (∀ r ∈ opcodeMap, r.selects w = false) →
    (∀ s : State, ∃ t, executeWord w s = .next t ∧ t.out.unknown = some w ∧ OnlyChanges [.unknown] s t) ∧
    (∀ s : State, s.stopped = false → s.fetch = .ok w →
      ∃ u, step s = .next u ∧ u.pc = s.pc + 2 ∧ u.out.unknown = some w)

/-- The halt test, and the cycle of a core whose run has ended: nothing changes but the pulses, which are low, `tone`
is held, and the run stays ended (40_core_cycle R91, 60_exceptions R233; the spec's own choices D4, and D5 for the fault;
notes/assumptions/14.md, 15.md, 16.md). -/
def Obligations.EndedRunChangesNothing : Prop :=
  (∀ s : State, s.halted = true ↔ 0x200 + s.cfg.romLen.val ≤ s.pc.toNat) ∧
  (∀ s : State, s.stopped = true ↔ s.fault ≠ none ∨ s.halted = true) ∧
  (∀ s : State, s.stopped = true →
    ∃ t, step s = .next t ∧ OnlyChanges strobes s t ∧ t.StrobesLow ∧ t.stopped = true ∧ step t = .next t)

/-- A fault abandons the cycle: the state after it is the state before it, with the fault and its address recorded, and
every later cycle changes nothing (40_core_cycle R98, the spec's own choice D5; the pulses low: notes/assumptions/14.md). -/
def Obligations.FaultAbandonsTheCycle : Prop :=
  ∀ (s : State) (a : FaultAddr), s.stopped = false →
    (s.fetch = .error a ∨
      ∃ w t, s.fetch = .ok w ∧ executeWord w s.beginExecute = .next t ∧ t.fault = some a) →
    ∃ u, step s = .next u ∧ u.fault = some a ∧ OnlyChanges (.fault :: strobes) s u ∧ u.StrobesLow ∧ step u = .next u

/-- The whole range is checked before any write: an instruction faults exactly when an address of its range is above
4095, records the lowest such address, and then writes nothing; the fetch faults exactly at `PC = 4095`
(20_memory R55, 60_exceptions R214; the spec's own choices D5, D29). -/
def Obligations.RangeIsCheckedBeforeAnyWrite : Prop :=
  (∀ (i : Instr) (s : State), s.fault = none →
    ∃ t, exec i s = .next t ∧
      ((∃ a, t.fault = some a) ↔ ∃ b, (accessRange i s).1 ≤ b ∧ b < (accessRange i s).1 + (accessRange i s).2 ∧ 4095 < b) ∧
      (∀ a, t.fault = some a →
        (accessRange i s).1 ≤ a.toNat ∧ a.toNat < (accessRange i s).1 + (accessRange i s).2 ∧ 4095 < a.toNat ∧
        (∀ b, (accessRange i s).1 ≤ b → 4095 < b → a.toNat ≤ b) ∧ OnlyChanges [.fault] s t)) ∧
  (∀ (s : State) (a : FaultAddr), s.stopped = false → (s.fetch = .error a ↔ s.pc = 0x0FFF ∧ a = 4096))

/-- A blocked instruction is retried: `FX0A` with no key pressed, and a deferred `DXYN`, leave the state before the cycle
with `PC` at themselves, and only the closing phases of the cycle act (40_core_cycle R97; the pulses low:
notes/assumptions/14.md). That a deferred `DXYN` with `I` out of range is retried and does not fault, the deferral being
tested before the range, is the spec's own choice (44_display R172, 60_exceptions R217, D29, U24; notes/assumptions/12.md). -/
def Obligations.BlockedInstructionIsRetried : Prop :=
  ∀ (s : State) (w : Word), s.stopped = false → s.fetch = .ok w →
    (∀ x, decodeWord w = some (.ldKey x) → s.currentKey = none →
      ∃ t, CycleExecutes s t t.endCycle ∧ t.pc = s.pc ∧ OnlyChanges strobes s t ∧ t.StrobesLow) ∧
    (∀ x y n, decodeWord w = some (.drw x y n) → s.cfg.quirks.displayWait = true → s.displayWaitCounter ≠ 0 →
      ∃ t, CycleExecutes s t t.endCycle ∧ t.pc = s.pc ∧ OnlyChanges strobes s t ∧ t.StrobesLow)

/-- The static inputs are "read-only for the remainder of the run" (10_state R37, 70_reset R251, D23; notes/assumptions/4.md). -/
def Obligations.ConfigurationIsConstant : Prop := ∀ s t : State, step s = .next t → t.cfg = s.cfg

/-- `now` never decreases from one cycle to the next (00_scope R8); the model draws it so (notes/assumptions/2.md). -/
def Obligations.TimeNeverDecreases : Prop := ∀ s t : State, step s = .next t → s.inputs.now ≤ t.inputs.now

/-- Every step keeps the invariant `Inv`, whose clauses are the spec's own inferences (10_state R32, 60_exceptions R214,
R217, R221) and the model's forms of memory and time (notes/assumptions/2.md, 9.md). -/
def Obligations.StepKeepsTheInvariant : Prop := ∀ s t : State, Inv s → step s = .next t → Inv t

/-- The invariant holds after reset, for every configuration, ROM and first inputs, and at `State.reset`, whose
configuration and inputs are the model's (notes/assumptions/3.md to 10.md). -/
def Obligations.ResetMeetsTheInvariant : Prop :=
  (∀ (cfg : Config) (rom : Vector Byte cfg.romLen.val) (first : Inputs), Inv (State.boot cfg rom first)) ∧ Inv State.reset

/-! ### The closing phases -/

/-- Phase 3 (60_exceptions R221; "exceeds" is strict by the spec's own inference, D31): more than 1/60 s, one decrement of
each timer that is above 0. That a second is 10^9 ticks is the spec's own choice, D2, and a constant of the model
(notes/assumptions/27.md). -/
def Obligations.TimerPhaseCountsDown : Prop :=
  ∀ s t u : State, CycleExecutes s t u →
    let due := (1000000000 : Int) < ((t.inputs.now : Int) - t.lastTimerUpdate) * 60
    (due → u.lastTimerUpdate = t.inputs.now ∧
      u.delayTimer.toNat = t.delayTimer.toNat - 1 ∧ u.soundTimer.toNat = t.soundTimer.toNat - 1) ∧
    (¬due → u.lastTimerUpdate = t.lastTimerUpdate ∧ u.delayTimer = t.delayTimer ∧ u.soundTimer = t.soundTimer)

/-- Phase 4 (60_exceptions R225): a due frame is rendered, whatever the dirty flag is, and the renderer sees the flag as
it was before the clear (the spec's own choices, D14). That the period is 16 666 700 ticks rests on the spec's own choice
of the tick, D2, and is a constant of the model (notes/assumptions/27.md). -/
def Obligations.FramePhaseRendersDueFrames : Prop :=
  ∀ s t u : State, CycleExecutes s t u →
    (t.nextFrameDue ≤ t.inputs.now →
      u.out.render = some t.displayDirty ∧ u.displayDirty = false ∧ u.displayWaitCounter = 0 ∧
      u.nextFrameDue = t.inputs.now + 16666700) ∧
    (t.inputs.now < t.nextFrameDue →
      u.out.render = none ∧ u.displayDirty = t.displayDirty ∧ u.displayWaitCounter = t.displayWaitCounter ∧
      u.nextFrameDue = t.nextFrameDue)

/-- Phase 5 (60_exceptions R229): every key that is down is stamped with `now`; the others keep their time. -/
def Obligations.InputPhaseStampsKeysDown : Prop :=
  ∀ s t u : State, CycleExecutes s t u →
    ∀ k : Fin 16, u.keyLastPressed[k] = if t.inputs.keysDown.getLsbD k.val then some t.inputs.now else t.keyLastPressed[k]

/-- `tone` is `sound_timer > 0` after the timer phase of the cycle (60_exceptions R233, D3; that it is held while the core
is halted or faulted is `EndedRunChangesNothing`, `FaultAbandonsTheCycle`). -/
def Obligations.ToneFollowsTheSoundTimer : Prop :=
  ∀ s t u : State, CycleExecutes s t u → (u.out.tone = true ↔ 0 < u.soundTimer.toNat)

/-- The closing phases write nothing else: registers, memory, stack, `I`, `PC`, display and reports are those the
instruction left (40_core_cycle R90, R99; the next samples are the model's, notes/assumptions/2.md). -/
def Obligations.ClosingPhasesFrame : Prop :=
  ∀ s t u : State, CycleExecutes s t u →
    OnlyChanges [.delayTimer, .soundTimer, .lastTimerUpdate, .tone, .displayDirty, .waitCounter, .nextFrameDue, .render,
      .keys, .inputs, .cycle] t u

/-- A `DXYN` that finds the counter not 0 with `display_wait` on waits for a frame (60_exceptions R226; D14): its cycle
leaves `PC`, display and registers alone, and after it the counter is 0 exactly when a frame was rendered in it, so the draw
can happen at the earliest in the next cycle. That it waits also with `I` out of range is the spec's own choice (D29, U24;
notes/assumptions/12.md). The whole state machine is `FrameSyncStateMachine`. -/
def Obligations.DeferredDrawWaitsForAFrame : Prop :=
  ∀ (s : State) (w : Word) (x y : Reg) (n : Imm4),
    s.stopped = false → s.fetch = .ok w → decodeWord w = some (.drw x y n) →
    s.cfg.quirks.displayWait = true → s.displayWaitCounter ≠ 0 →
    ∃ u, step s = .next u ∧ u.pc = s.pc ∧ u.display = s.display ∧ (∀ r, u.reg r = s.reg r) ∧
      (u.displayWaitCounter = 0 ↔ s.nextFrameDue ≤ s.inputs.now) ∧
      (s.inputs.now < s.nextFrameDue → u.displayWaitCounter = s.displayWaitCounter)

/-! ### Reset -/

/-- The state after reset (70_reset R250), for every configuration, ROM and first inputs; nothing of an earlier run
survives an asserted reset (R251); `State.reset` is such a state. The spec's own choices: D5, D12, D13, D23; the
configuration and inputs of `State.reset` are the model's (notes/assumptions/3.md to 10.md, 17.md). -/
def Obligations.ResetState : Prop :=
  (∀ (cfg : Config) (rom : Vector Byte cfg.romLen.val) (first : Inputs),
    let s := State.boot cfg rom first
    (∀ k : Fin 80, s.byteAt (0x50 + k.val) = cfg.font[k]) ∧
    (∀ k : Fin cfg.romLen.val, s.byteAt (0x200 + k.val) = rom[k]) ∧
    (∀ a, a < 0x50 ∨ (0xA0 ≤ a ∧ a < 0x200) ∨ (0x200 + cfg.romLen.val ≤ a ∧ a < 4096) → s.byteAt a = 0) ∧
    (∀ r, s.reg r = 0) ∧ s.index = 0 ∧ s.pc = 0x200 ∧ s.sp.val = 0 ∧ (∀ k : Fin 16, s.stack[k] = 0) ∧
    s.delayTimer = 0 ∧ s.soundTimer = 0 ∧ (∀ row col, Display.cell s.display row col = false) ∧
    s.displayDirty = false ∧ s.displayWaitCounter = 0 ∧ (∀ k : Fin 16, s.keyLastPressed[k] = none) ∧
    s.lastTimerUpdate = 0 ∧ s.nextFrameDue = 0 ∧ s.fault = none ∧
    s.StrobesLow ∧ s.out.tone = false ∧ (s.halted = true ↔ cfg.romLen.val = 0) ∧ s.cfg = cfg ∧ s.currentKey = none) ∧
  (∀ (s : State) (rom : Vector Byte s.cfg.romLen.val), ∃ first cycle,
    s.assertReset rom = { State.boot s.cfg rom first with cycle := cycle }) ∧
  (∃ rom first, State.reset = State.boot resetConfig rom first)

/-! ### Control flow -/

/-- `3XNN` and `4XNN` (41_control_flow R114, R115). -/
def Obligations.SkipsOnImmediate : Prop :=
  ∀ (x : Reg) (nn : Imm8) (s : State),
    (decodeWord (wordXNN 0x3#4 x nn) = some (.seImm x nn) ∧
      ∃ t, exec (.seImm x nn) s = .next t ∧
        t.pc = (if (s.reg x).toNat = nn.toNat then s.pc + 2 else s.pc) ∧ OnlyChanges [.pc] s t) ∧
    (decodeWord (wordXNN 0x4#4 x nn) = some (.sneImm x nn) ∧
      ∃ t, exec (.sneImm x nn) s = .next t ∧
        t.pc = (if (s.reg x).toNat = nn.toNat then s.pc else s.pc + 2) ∧ OnlyChanges [.pc] s t)

/-- `5XY0` and `9XY0` (41_control_flow R116, R117). -/
def Obligations.SkipsOnRegisters : Prop :=
  ∀ (x y : Reg) (s : State),
    (decodeWord (wordXYN 0x5#4 x y 0#4) = some (.seReg x y) ∧
      ∃ t, exec (.seReg x y) s = .next t ∧
        t.pc = (if (s.reg x).toNat = (s.reg y).toNat then s.pc + 2 else s.pc) ∧ OnlyChanges [.pc] s t) ∧
    (decodeWord (wordXYN 0x9#4 x y 0#4) = some (.sneReg x y) ∧
      ∃ t, exec (.sneReg x y) s = .next t ∧
        t.pc = (if (s.reg x).toNat = (s.reg y).toNat then s.pc else s.pc + 2) ∧ OnlyChanges [.pc] s t)

/-- `1NNN` (41_control_flow R112). -/
def Obligations.JumpsToTheImmediate : Prop :=
  ∀ (nnn : Imm12) (s : State), decodeWord (wordNNN 0x1#4 nnn) = some (.jp nnn) ∧
    ∃ t, exec (.jp nnn) s = .next t ∧ t.pc.toNat = nnn.toNat ∧ OnlyChanges [.pc] s t

/-- `BNNN` (41_control_flow R118): the register is `V[0]`, or `V[X]` with the toggle on, X the top nibble of NNN; the sum
is not masked (the spec's own reading, D19). -/
def Obligations.JumpsWithOffset : Prop :=
  ∀ (nnn : Imm12) (s : State), decodeWord (wordNNN 0xB#4 nnn) = some (.jpV0 (nnn.extractLsb' 8 4) nnn) ∧
    ∃ t, exec (.jpV0 (nnn.extractLsb' 8 4) nnn) s = .next t ∧
      t.pc.toNat = nnn.toNat +
        (if s.cfg.quirks.jumpingWithRegister then s.reg (BitVec.ofNat 4 (nnn.toNat / 256)) else s.reg 0).toNat ∧
      OnlyChanges [.pc] s t

/-- `2NNN` (41_control_flow R113): the return address is pushed, or rejected and reported on a full stack; the jump is
taken either way (the spec's own choice, D20). -/
def Obligations.CallPushesAndJumps : Prop :=
  ∀ (nnn : Imm12) (s : State), decodeWord (wordNNN 0x2#4 nnn) = some (.call nnn) ∧
    (s.sp.val < 16 →
      ∃ t, exec (.call nnn) s = .next t ∧ t.pc.toNat = nnn.toNat ∧ t.sp.val = s.sp.val + 1 ∧
        (∀ k : Fin 16, t.stack[k] = if k.val = s.sp.val then s.pc else s.stack[k]) ∧
        OnlyChanges [.pc, .stack] s t) ∧
    (s.sp.val = 16 →
      ∃ t, exec (.call nnn) s = .next t ∧ t.pc.toNat = nnn.toNat ∧ t.out.stackOverflow = true ∧
        OnlyChanges [.pc, .stackOverflow] s t)

/-- `00EE` (41_control_flow R111): the top entry goes to `PC`, or 0 on an empty stack, with the underflow reported. That SP
is a count and that `PC` is 0 on an empty stack are the spec's own choices (D20); that a pop keeps the entries is the model's
(notes/assumptions/11.md). -/
def Obligations.ReturnPops : Prop :=
  decodeWord 0x00EE = some .ret ∧
  ∀ s : State,
    (0 < s.sp.val →
      ∃ t, exec .ret s = .next t ∧ t.sp.val + 1 = s.sp.val ∧ t.stack = s.stack ∧
        (∀ k : Fin 16, k.val + 1 = s.sp.val → t.pc = s.stack[k]) ∧ OnlyChanges [.pc, .stack] s t) ∧
    (s.sp.val = 0 →
      ∃ t, exec .ret s = .next t ∧ t.pc = 0 ∧ t.out.stackUnderflow = true ∧ OnlyChanges [.pc, .stackUnderflow] s t)

/-- Pushes of the addresses `as`, all with room on the stack, then as many pops: the pops give the addresses in reverse
order, and the stack pointer is back (10_state R27, R28, the round-trip property S4; the count form of SP is D20,
notes/assumptions/11.md). It is about `Push` and `Pop`; that `2NNN` and `00EE` are these with a jump is `CallPushesAndJumps`
and `ReturnPops`. -/
def Obligations.PopsReversePushes : Prop :=
  ∀ (as : List Word) (s : State), s.sp.val + as.length ≤ 16 →
    let pushed := as.foldl (fun q a => q.push a) s
    pushed.sp.val = s.sp.val + as.length ∧
    ∀ k : Nat, (h : k < as.length) →
      (Nat.repeat State.dropTop k pushed).popped = as[as.length - 1 - k] ∧
      (Nat.repeat State.dropTop (k + 1) pushed).sp.val = s.sp.val + (as.length - 1 - k)

/-! ### Registers and arithmetic -/

/-- `6XNN` and `8XY0` (42_alu R130, R132). -/
def Obligations.LoadsIntoARegister : Prop :=
  ∀ (x y : Reg) (nn : Imm8) (s : State),
    (decodeWord (wordXNN 0x6#4 x nn) = some (.ldImm x nn) ∧
      ∃ t, exec (.ldImm x nn) s = .next t ∧ t.reg x = nn ∧ RegsKeptBut [x] s t ∧ OnlyChanges [.regs] s t) ∧
    (decodeWord (wordXYN 0x8#4 x y 0#4) = some (.ldReg x y) ∧
      ∃ t, exec (.ldReg x y) s = .next t ∧ t.reg x = s.reg y ∧ RegsKeptBut [x] s t ∧ OnlyChanges [.regs] s t)

/-- `7XNN` (42_alu R131): modulo 256, no flag. -/
def Obligations.AddImmediateWrapsWithoutFlag : Prop :=
  ∀ (x : Reg) (nn : Imm8) (s : State), decodeWord (wordXNN 0x7#4 x nn) = some (.addImm x nn) ∧
    ∃ t, exec (.addImm x nn) s = .next t ∧ (t.reg x).toNat = ((s.reg x).toNat + nn.toNat) % 256 ∧
      RegsKeptBut [x] s t ∧ OnlyChanges [.regs] s t

/-- `8XY1`, `8XY2`, `8XY3` (42_alu R133, R134, R135): bit by bit; `VF <- 0` afterwards exactly when `vf_reset` is on. -/
def Obligations.LogicOperations : Prop :=
  ∀ (x y : Reg) (s : State),
    (decodeWord (wordXYN 0x8#4 x y 1#4) = some (.orReg x y) ∧ decodeWord (wordXYN 0x8#4 x y 2#4) = some (.andReg x y) ∧
      decodeWord (wordXYN 0x8#4 x y 3#4) = some (.xorReg x y)) ∧
    ∀ (i : Instr) (op : Bool → Bool → Bool),
      (i = .orReg x y ∧ op = or) ∨ (i = .andReg x y ∧ op = and) ∨ (i = .xorReg x y ∧ op = xor) →
      ∃ t, exec i s = .next t ∧ OnlyChanges [.regs] s t ∧
        (s.cfg.quirks.vfReset = false →
          (∀ k < 8, (t.reg x).getLsbD k = op ((s.reg x).getLsbD k) ((s.reg y).getLsbD k)) ∧ RegsKeptBut [x] s t) ∧
        (s.cfg.quirks.vfReset = true →
          t.reg VF = 0 ∧ RegsKeptBut [x, VF] s t ∧
          (x ≠ VF → ∀ k < 8, (t.reg x).getLsbD k = op ((s.reg x).getLsbD k) ((s.reg y).getLsbD k)))

/-- `8XY4` (42_alu R136): the sum modulo 256 and the carry; with X = 15 the flag stays (the spec's own choice, R140, D6). -/
def Obligations.AddWithCarryOut : Prop :=
  ∀ (x y : Reg) (s : State), decodeWord (wordXYN 0x8#4 x y 4#4) = some (.addReg x y) ∧
    ∃ t, exec (.addReg x y) s = .next t ∧
      (t.reg VF).toNat = (if 255 < (s.reg x).toNat + (s.reg y).toNat then 1 else 0) ∧
      (x ≠ VF → (t.reg x).toNat = ((s.reg x).toNat + (s.reg y).toNat) % 256) ∧
      RegsKeptBut [x, VF] s t ∧ OnlyChanges [.regs] s t

/-- `8XY5` and `8XY7` (42_alu R137, R138): the difference modulo 256 and the not-borrow; with X = 15 the flag stays (the
spec's own choice, R140, D6). -/
def Obligations.SubtractWithNotBorrow : Prop :=
  ∀ (x y : Reg) (s : State),
    (decodeWord (wordXYN 0x8#4 x y 5#4) = some (.subReg x y) ∧
      ∃ t, exec (.subReg x y) s = .next t ∧
        (t.reg VF).toNat = (if (s.reg y).toNat ≤ (s.reg x).toNat then 1 else 0) ∧
        (x ≠ VF → ((t.reg x).toNat : Int) = ((s.reg x).toNat - (s.reg y).toNat : Int) % 256) ∧
        RegsKeptBut [x, VF] s t ∧ OnlyChanges [.regs] s t) ∧
    (decodeWord (wordXYN 0x8#4 x y 7#4) = some (.subnReg x y) ∧
      ∃ t, exec (.subnReg x y) s = .next t ∧
        (t.reg VF).toNat = (if (s.reg x).toNat ≤ (s.reg y).toNat then 1 else 0) ∧
        (x ≠ VF → ((t.reg x).toNat : Int) = ((s.reg y).toNat - (s.reg x).toNat : Int) % 256) ∧
        RegsKeptBut [x, VF] s t ∧ OnlyChanges [.regs] s t)

/-- `8XY6` and `8XYE` (42_alu R139, R141): by one position, the bit shifted out to `VF`, the source chosen by
`shifting_source`; with X = 15 the flag stays (the spec's own choice, R140, D6). -/
def Obligations.ShiftsByOne : Prop :=
  ∀ (x y : Reg) (s : State),
    let src := (if s.cfg.quirks.shiftingSource then s.reg x else s.reg y).toNat
    (decodeWord (wordXYN 0x8#4 x y 6#4) = some (.shrReg x y) ∧
      ∃ t, exec (.shrReg x y) s = .next t ∧ (t.reg VF).toNat = src % 2 ∧
        (x ≠ VF → (t.reg x).toNat = src / 2) ∧ RegsKeptBut [x, VF] s t ∧ OnlyChanges [.regs] s t) ∧
    (decodeWord (wordXYN 0x8#4 x y 0xE#4) = some (.shlReg x y) ∧
      ∃ t, exec (.shlReg x y) s = .next t ∧ (t.reg VF).toNat = src / 128 ∧
        (x ≠ VF → (t.reg x).toNat = src * 2 % 256) ∧ RegsKeptBut [x, VF] s t ∧ OnlyChanges [.regs] s t)

/-- `CXNN` (42_alu R143): for every random byte, each bit is that of the byte where NN has a 1, and 0 where it has a 0
(the byte is a free input, D16, notes/assumptions/2.md). -/
def Obligations.RandomByteIsMasked : Prop :=
  ∀ (x : Reg) (nn : Imm8) (s : State), decodeWord (wordXNN 0xC#4 x nn) = some (.rnd x nn) ∧
    ∃ t, exec (.rnd x nn) s = .next t ∧
      (∀ k < 8, (t.reg x).getLsbD k = (s.inputs.rand.getLsbD k && nn.getLsbD k)) ∧
      RegsKeptBut [x] s t ∧ OnlyChanges [.regs] s t

/-- When X is the flag register, the flag is written last and stays, and it is computed from the operands as they were
before the instruction (42_alu R140, the spec's own choice D6; the column X = 15 of R145). -/
def Obligations.FlagIsWrittenLast : Prop :=
  ∀ (y : Reg) (s : State),
    let f := (s.reg VF).toNat
    let b := (s.reg y).toNat
    let src := if s.cfg.quirks.shiftingSource then f else b
    ∀ (i : Instr) (flag : Nat),
      (i = .addReg VF y ∧ flag = (if 255 < f + b then 1 else 0)) ∨
      (i = .subReg VF y ∧ flag = (if b ≤ f then 1 else 0)) ∨
      (i = .subnReg VF y ∧ flag = (if f ≤ b then 1 else 0)) ∨
      (i = .shrReg VF y ∧ flag = src % 2) ∨
      (i = .shlReg VF y ∧ flag = src / 128) ∨
      (s.cfg.quirks.vfReset = true ∧ flag = 0 ∧ (i = .orReg VF y ∨ i = .andReg VF y ∨ i = .xorReg VF y)) →
      ∃ t, exec i s = .next t ∧ (t.reg VF).toNat = flag ∧ RegsKeptBut [VF] s t ∧ OnlyChanges [.regs] s t

/-! ### Index register and memory -/

/-- `ANNN` (43_index_memory R150). -/
def Obligations.IndexTakesTheImmediate : Prop :=
  ∀ (nnn : Imm12) (s : State), decodeWord (wordNNN 0xA#4 nnn) = some (.ldIndex nnn) ∧
    ∃ t, exec (.ldIndex nnn) s = .next t ∧ t.index.toNat = nnn.toNat ∧ OnlyChanges [.index] s t

/-- `FX1E`, `FX29` (43_index_memory R151, R152): no flag, no fault, no mask (the spec's own readings, D24, D18). -/
def Obligations.IndexTakesARegister : Prop :=
  ∀ (x : Reg) (s : State),
    (decodeWord (wordXNN 0xF#4 x 0x1E#8) = some (.addIndex x) ∧
      ∃ t, exec (.addIndex x) s = .next t ∧ t.index.toNat = (s.index.toNat + (s.reg x).toNat) % 65536 ∧
        OnlyChanges [.index] s t) ∧
    (decodeWord (wordXNN 0xF#4 x 0x29#8) = some (.ldFont x) ∧
      ∃ t, exec (.ldFont x) s = .next t ∧ t.index.toNat = 0x50 + 5 * (s.reg x).toNat ∧ OnlyChanges [.index] s t)

/-- `FX33` (43_index_memory R153): the three decimal digits at `I`, or the fault and nothing else (the fault
is the spec's own choice, D5). -/
def Obligations.DecimalDigitsAreStored : Prop :=
  ∀ (x : Reg) (s : State), decodeWord (wordXNN 0xF#4 x 0x33#8) = some (.ldBcd x) ∧
    (Memory.wf s.cfg.font s.mem = true → s.index.toNat + 2 ≤ 4095 →
      ∃ t, exec (.ldBcd x) s = .next t ∧
        (t.byteAt s.index.toNat).toNat = (s.reg x).toNat / 100 ∧
        (t.byteAt (s.index.toNat + 1)).toNat = (s.reg x).toNat / 10 % 10 ∧
        (t.byteAt (s.index.toNat + 2)).toNat = (s.reg x).toNat % 10 ∧
        (∀ a, a < s.index.toNat ∨ s.index.toNat + 2 < a → t.byteAt a = s.byteAt a) ∧
        OnlyChanges [.memory] s t) ∧
    (4095 < s.index.toNat + 2 →
      ∃ t, exec (.ldBcd x) s = .next t ∧ (∃ a, t.fault = some a ∧ a.toNat = max s.index.toNat 4096) ∧
        OnlyChanges [.fault] s t)

/-- `FX55` (43_index_memory R155), for every `MEMINC`: registers 0 to X stored from `I` up, `I` stepped only with the
toggle on; or the fault and nothing else (the spec's own choices, D5, D7). -/
def Obligations.RegistersAreStored : Prop :=
  ∀ (x : Reg) (s : State), decodeWord (wordXNN 0xF#4 x 0x55#8) = some (.storeRegs x) ∧
    (Memory.wf s.cfg.font s.mem = true → s.index.toNat + x.toNat ≤ 4095 →
      ∃ t, exec (.storeRegs x) s = .next t ∧
        (∀ r : Reg, r.toNat ≤ x.toNat → t.byteAt (s.index.toNat + r.toNat) = s.reg r) ∧
        (∀ a, a < s.index.toNat ∨ s.index.toNat + x.toNat < a → t.byteAt a = s.byteAt a) ∧
        t.index.toNat =
          (if s.cfg.quirks.memoryIncrement then (s.index.toNat + (memIncOf s.cfg x).toNat) % 65536 else s.index.toNat) ∧
        OnlyChanges [.memory, .index] s t) ∧
    (4095 < s.index.toNat + x.toNat →
      ∃ t, exec (.storeRegs x) s = .next t ∧ (∃ a, t.fault = some a ∧ a.toNat = max s.index.toNat 4096) ∧
        OnlyChanges [.fault] s t)

/-- `FX65` (43_index_memory R156), for every `MEMINC`: registers 0 to X loaded from `I` up, the others kept, memory
unchanged, `I` stepped only with the toggle on; or the fault and nothing else (the spec's own choices, D5, D7). -/
def Obligations.RegistersAreLoaded : Prop :=
  ∀ (x : Reg) (s : State), decodeWord (wordXNN 0xF#4 x 0x65#8) = some (.loadRegs x) ∧
    (s.index.toNat + x.toNat ≤ 4095 →
      ∃ t, exec (.loadRegs x) s = .next t ∧
        (∀ r : Reg, t.reg r = if r.toNat ≤ x.toNat then s.byteAt (s.index.toNat + r.toNat) else s.reg r) ∧
        t.index.toNat =
          (if s.cfg.quirks.memoryIncrement then (s.index.toNat + (memIncOf s.cfg x).toNat) % 65536 else s.index.toNat) ∧
        OnlyChanges [.regs, .index] s t) ∧
    (4095 < s.index.toNat + x.toNat →
      ∃ t, exec (.loadRegs x) s = .next t ∧ (∃ a, t.fault = some a ∧ a.toNat = max s.index.toNat 4096) ∧
        OnlyChanges [.fault] s t)

/-- Storing registers 0 to X and loading them again from the same `I` restores them, whatever the registers held in
between (the round trip of 43_index_memory R156, S7). -/
def Obligations.StoreThenLoadRestoresRegisters : Prop :=
  ∀ (x : Reg) (s t u w : State), Memory.wf s.cfg.font s.mem = true → s.index.toNat + x.toNat ≤ 4095 →
    exec (.storeRegs x) s = .next t →
    u.cfg = t.cfg → u.mem = t.mem → u.index = s.index →
    exec (.loadRegs x) u = .next w → ∀ r : Reg, r.toNat ≤ x.toNat → w.reg r = s.reg r

/-- A store by `FX55` is seen by the very next fetch (20_memory R62, the spec's own inference): an instruction word whose two bytes were just
stored is the one fetched. -/
def Obligations.StoresAreSeenByTheNextFetch : Prop :=
  ∀ (x : Reg) (s t : State) (k : Reg), Memory.wf s.cfg.font s.mem = true → s.index.toNat + x.toNat ≤ 4095 →
    exec (.storeRegs x) s = .next t → k.toNat + 1 ≤ x.toNat → t.pc.toNat = s.index.toNat + k.toNat →
    t.fetch = .ok (s.reg k ++ s.reg (k + 1))

/-! ### Display -/

/-- `00E0` (44_display R171): all 2048 cells off, the dirty flag set, nothing else (set even when nothing
changed: the spec's own choice, D15). -/
def Obligations.ClearTurnsEveryCellOff : Prop :=
  decodeWord 0x00E0 = some .cls ∧
  ∀ s : State, ∃ t, exec .cls s = .next t ∧ (∀ row col, Display.cell t.display row col = false) ∧
    t.displayDirty = true ∧ OnlyChanges [.display, .displayDirty] s t

/-- `DXYN` that draws (44_display R172, R173): each cell is toggled exactly when a set sprite bit lands on it, clipped or
wrapped; `VF` is 1 exactly when an on cell was turned off; the dirty flag is set; the counter steps only with
`display_wait` on. N = 0 and all-zero sprites included (the spec's own choices, D15, D27). -/
def Obligations.DrawTogglesCoveredCells : Prop :=
  ∀ (x y : Reg) (n : Imm4) (s : State), decodeWord (wordXYN 0xD#4 x y n) = some (.drw x y n) ∧
    (¬(s.cfg.quirks.displayWait = true ∧ s.displayWaitCounter ≠ 0) → n.toNat = 0 ∨ s.index.toNat + n.toNat ≤ 4096 →
      ∃ t, exec (.drw x y n) s = .next t ∧
        (∀ row col, SpriteCovers s x y n row col →
          Display.cell t.display row col = !Display.cell s.display row col) ∧
        (∀ row col, ¬SpriteCovers s x y n row col →
          Display.cell t.display row col = Display.cell s.display row col) ∧
        ((∃ row col, SpriteCovers s x y n row col ∧ Display.cell s.display row col = true) → t.reg VF = 1) ∧
        ((¬∃ row col, SpriteCovers s x y n row col ∧ Display.cell s.display row col = true) → t.reg VF = 0) ∧
        t.displayDirty = true ∧
        t.displayWaitCounter = (if s.cfg.quirks.displayWait then s.displayWaitCounter + 1 else s.displayWaitCounter) ∧
        RegsKeptBut [VF] s t ∧ OnlyChanges [.regs, .display, .displayDirty, .waitCounter] s t)

/-- `DXYN` that does not draw (44_display R172): deferral is tested first and only rewinds `PC`; a draw out of range
faults, even where clipping would skip the row, and writes nothing else (the spec's own choices, D5, D29). -/
def Obligations.DrawIsDeferredOrFaults : Prop :=
  ∀ (x y : Reg) (n : Imm4) (s : State),
    (s.cfg.quirks.displayWait = true → s.displayWaitCounter ≠ 0 →
      ∃ t, exec (.drw x y n) s = .next t ∧ t.pc = s.pc - 2 ∧ OnlyChanges [.pc] s t) ∧
    (¬(s.cfg.quirks.displayWait = true ∧ s.displayWaitCounter ≠ 0) → 0 < n.toNat → 4095 < s.index.toNat + n.toNat - 1 →
      ∃ t, exec (.drw x y n) s = .next t ∧ (∃ a, t.fault = some a ∧ a.toNat = max s.index.toNat 4096) ∧
        OnlyChanges [.fault] s t)

/-- Drawing the same sprite twice at the same place restores the display; when it was all off and a set bit lands
on-screen, the second draw sets `VF` (44_display R174 a). Neither coordinate register is `VF`, which the first draw writes. -/
def Obligations.DrawingTwiceRestoresTheDisplay : Prop :=
  ∀ (x y : Reg) (n : Imm4) (s t u w : State), x ≠ VF → y ≠ VF →
    s.drawDeferred = false → s.index.toNat + n.toNat ≤ 4096 → exec (.drw x y n) s = .next t →
    u.display = t.display → u.reg x = t.reg x → u.reg y = t.reg y → u.index = t.index → u.mem = t.mem → u.cfg = t.cfg →
    u.drawDeferred = false → exec (.drw x y n) u = .next w →
    w.display = s.display ∧
    ((∀ row col, Display.cell s.display row col = false) → (∃ row col, SpriteCovers s x y n row col) → w.reg VF = 1)

/-! ### Keys and timers -/

/-- `CurrentKey(now)` (60_exceptions R230): the key with the newest time, the lowest number on a tie, when that time is
within the window
(the tie and the boundary are the spec's own choices, D10, D11). -/
def Obligations.CurrentKeyIsTheNewestWithinTheWindow : Prop :=
  ∀ (s : State) (k : Reg),
    s.currentKey = some k ↔
      ∃ t : Nat, s.keyLastPressed[k.toNat]'k.isLt = some t ∧
        (∀ (j : Fin 16) (u : Nat), s.keyLastPressed[j] = some u → u ≤ t) ∧
        (∀ j : Fin 16, s.keyLastPressed[j] = some t → k.toNat ≤ j.val) ∧
        (s.inputs.now : Int) - t ≤ s.cfg.keyWindow

/-- `EX9E` and `EXA1` (45_keys_timers R190, R191): the whole 8-bit `V[X]` is compared, and one is the negation of the
other. -/
def Obligations.KeySkips : Prop :=
  ∀ (x : Reg) (s : State),
    (decodeWord (wordXNN 0xE#4 x 0x9E#8) = some (.skp x) ∧ decodeWord (wordXNN 0xE#4 x 0xA1#8) = some (.sknp x)) ∧
    ∃ t u, exec (.skp x) s = .next t ∧ exec (.sknp x) s = .next u ∧ OnlyChanges [.pc] s t ∧ OnlyChanges [.pc] s u ∧
      ((∃ k, s.currentKey = some k ∧ k.toNat = (s.reg x).toNat) → t.pc = s.pc + 2 ∧ u.pc = s.pc) ∧
      ((¬∃ k, s.currentKey = some k ∧ k.toNat = (s.reg x).toNat) → t.pc = s.pc ∧ u.pc = s.pc + 2)

/-- `FX0A` (45_keys_timers R192): the current key's number, or a retry that writes nothing else. -/
def Obligations.KeyWaitTakesTheCurrentKey : Prop :=
  ∀ (x : Reg) (s : State), decodeWord (wordXNN 0xF#4 x 0x0A#8) = some (.ldKey x) ∧
    (∀ k, s.currentKey = some k →
      ∃ t, exec (.ldKey x) s = .next t ∧ (t.reg x).toNat = k.toNat ∧ RegsKeptBut [x] s t ∧ OnlyChanges [.regs] s t) ∧
    (s.currentKey = none →
      ∃ t, exec (.ldKey x) s = .next t ∧ t.pc = s.pc - 2 ∧ OnlyChanges [.pc] s t)

/-- `FX07`, `FX15`, `FX18` (45_keys_timers R193, R194, R195); `last_timer_update` is not touched. -/
def Obligations.TimerRegisterMoves : Prop :=
  ∀ (x : Reg) (s : State),
    (decodeWord (wordXNN 0xF#4 x 0x07#8) = some (.ldFromDelay x) ∧
      ∃ t, exec (.ldFromDelay x) s = .next t ∧ t.reg x = s.delayTimer ∧ RegsKeptBut [x] s t ∧ OnlyChanges [.regs] s t) ∧
    (decodeWord (wordXNN 0xF#4 x 0x15#8) = some (.ldDelay x) ∧
      ∃ t, exec (.ldDelay x) s = .next t ∧ t.delayTimer = s.reg x ∧ OnlyChanges [.delayTimer] s t) ∧
    (decodeWord (wordXNN 0xF#4 x 0x18#8) = some (.ldSound x) ∧
      ∃ t, exec (.ldSound x) s = .next t ∧ t.soundTimer = s.reg x ∧ OnlyChanges [.soundTimer] s t)

/-! ### The whole machine -/

/-- Who writes what (the "written by" column of 10_state R20): an instruction changes no part of the state that the
table does not give it. The report outputs as parts of the state are the model's (notes/assumptions/14.md). -/
def Obligations.PartsAreWrittenOnlyByTheirInstructions : Prop :=
  ∀ (i : Instr) (s t : State) (p : Part), exec i s = .next t → mayWritePart i p = false → p.same s t

/-- Which registers an instruction writes (10_state R22, R23): its destination, `VF` where it writes a flag, `V[0..X]`
for `FX65`; every other register is kept, by every instruction. -/
def Obligations.RegistersAreWrittenOnlyByTheirInstructions : Prop :=
  ∀ (i : Instr) (s t : State) (r : Reg), exec i s = .next t → mayWriteReg i s r = false → t.reg r = s.reg r

/-- An instruction sees `now` and the key table only through the current key, and `rand` only in `CXNN`
(40_core_cycle R94): with the same current key, other input samples and key times change no other instruction's effect. Inputs held in
the state are the model's (notes/assumptions/2.md). -/
def Obligations.InputsReachOnlyTheirInstructions : Prop :=
  ∀ (i : Instr) (s t : State) (inp : Inputs) (keys : Vector (Option Nat) 16),
    (∀ x nn, i ≠ .rnd x nn) →
    ({ s with inputs := inp, keyLastPressed := keys } : State).currentKey = s.currentKey →
    exec i s = .next t →
    exec i { s with inputs := inp, keyLastPressed := keys } = .next { t with inputs := inp, keyLastPressed := keys }

/-- The frame-sync state machine, every row of 60_exceptions R227 (44_display R176), with `display_wait` on: in `DRAW_READY`
(counter 0) a `DXYN` is not retried (what it draws is `DrawTogglesCoveredCells`) and moves to `DRAW_DONE` (counter 1, the
dirty flag set); in `DRAW_DONE` it is retried and leaves counter, `PC`, display, dirty flag and registers alone; any other word leaves the counter alone; a due frame phase moves to
`DRAW_READY`, renders and sets the next deadline, and one that is not due changes none of these. So at most one sprite is
drawn between two rendered frames. With `display_wait` off no instruction moves the counter. The spec's own choices: D14,
D15, D28, D29, U24; the figures of time are D2, notes/assumptions/27.md. -/
def Obligations.FrameSyncStateMachine : Prop :=
  ∀ (s t u : State) (w : Word), s.fetch = .ok w → CycleExecutes s t u →
    (s.cfg.quirks.displayWait = true → ∀ x y n, decodeWord w = some (.drw x y n) →
      (s.displayWaitCounter = 0 → t.displayWaitCounter = 1 ∧ t.displayDirty = true ∧ t.pc = s.pc + 2) ∧
      (s.displayWaitCounter ≠ 0 →
        t.displayWaitCounter = s.displayWaitCounter ∧ t.pc = s.pc ∧ t.display = s.display ∧
        t.displayDirty = s.displayDirty ∧ ∀ r, t.reg r = s.reg r)) ∧
    ((s.cfg.quirks.displayWait = false ∨ ∀ x y n, decodeWord w ≠ some (.drw x y n)) →
      t.displayWaitCounter = s.displayWaitCounter) ∧
    (s.nextFrameDue ≤ s.inputs.now →
      u.displayWaitCounter = 0 ∧ u.out.render = some t.displayDirty ∧ u.displayDirty = false ∧
      u.nextFrameDue = s.inputs.now + 16666700) ∧
    (s.inputs.now < s.nextFrameDue →
      u.displayWaitCounter = t.displayWaitCounter ∧ u.out.render = none ∧ u.displayDirty = t.displayDirty ∧
      u.nextFrameDue = s.nextFrameDue)
end

