-- ==== Sys2Proof/Laws/Memory.lean ====
section
/-! SUPPORT. Memory: a read after a write, a write elsewhere, and the canonical form, kept by every operation
(20_memory R53, R54, R59 d). -/

namespace Sys2Proof.Machine

variable {font : Vector Byte 80}

@[simp] theorem Memory.read_nil (a : Nat) : Memory.read font [] a = Memory.background font a := rfl

/-- Every listed address of `m` is above `a`. -/
def Memory.Above (a : Nat) (m : Memory) : Prop := ∀ c ∈ m, a < c.1

theorem Memory.read_of_above {a : Nat} {m : Memory} (h : Memory.Above a m) :
    Memory.read font m a = Memory.background font a := by
  induction m with
  | nil => rfl
  | cons c rest ih =>
    have hc : a < c.1 := h c (by simp)
    have hr : Memory.Above a rest := fun d hd => h d (by simp [hd])
    obtain ⟨b, w⟩ := c
    simp only [Memory.read]
    rw [if_neg (by simp at hc; omega), ih hr]

/-- The canonical form, as a proposition on the list. -/
theorem Memory.wf_iff {m : Memory} :
    Memory.wf font m = true ↔
      m.Pairwise (fun c d => c.1 < d.1) ∧ ∀ c ∈ m, c.1 < memSize ∧ c.2 ≠ Memory.background font c.1 := by
  simp [Memory.wf]

theorem Memory.wf_nil : Memory.wf font [] = true := by simp [Memory.wf_iff]

theorem Memory.wf_cons {c : Host.Cell} {m : Memory} :
    Memory.wf font (c :: m) = true ↔
      Memory.Above c.1 m ∧ c.1 < memSize ∧ c.2 ≠ Memory.background font c.1 ∧ Memory.wf font m = true := by
  simp only [Memory.wf_iff, List.pairwise_cons, List.mem_cons, forall_eq_or_imp, Memory.Above]
  tauto

theorem Memory.above_of_lt {a b : Nat} {m : Memory} (h : a < b) (hm : Memory.Above b m) : Memory.Above a m :=
  fun c hc => Nat.lt_trans h (hm c hc)

/-- A read after a put to the same address gives the byte put, in a canonical memory. -/
theorem Memory.read_put_same {m : Memory} (hm : Memory.wf font m = true) (a : Nat) (d : Byte) :
    Memory.read font (Memory.put font m a d) a = d := by
  induction m with
  | nil =>
    by_cases h : d = Memory.background font a <;> simp [Memory.put, Memory.read, h]
  | cons c rest ih =>
    obtain ⟨b, w⟩ := c
    obtain ⟨hab, _, _, hr⟩ := Memory.wf_cons.mp hm
    simp only [Memory.put]
    split_ifs with h1 h2 h3 h4
    · rw [Memory.read_of_above, h2]
      intro c hc
      rcases List.mem_cons.mp hc with rfl | hc
      · exact h1
      · exact Nat.lt_trans h1 (hab c hc)
    · simp [Memory.read]
    · subst h3
      rw [Memory.read_of_above hab, h4]
    · simp [Memory.read]
    · simp [Memory.read, h3, ih hr]

/-- A put leaves every other address alone. -/
theorem Memory.read_put_ne {a a' : Nat} (h : a' ≠ a) (m : Memory) (d : Byte)
    (hm : Memory.wf font m = true) :
    Memory.read font (Memory.put font m a d) a' = Memory.read font m a' := by
  induction m with
  | nil =>
    by_cases hd : d = Memory.background font a <;> simp [Memory.put, Memory.read, hd, h]
  | cons c rest ih =>
    obtain ⟨b, w⟩ := c
    obtain ⟨hab, _, _, hr⟩ := Memory.wf_cons.mp hm
    simp only [Memory.put]
    split_ifs with h1 h2 h3 h4
    · rfl
    · simp [Memory.read, h]
    · subst h3
      simp [Memory.read, h]
    · subst h3
      simp [Memory.read, h]
    · by_cases hb : a' = b <;> simp [Memory.read, hb, ih hr]

theorem Memory.above_put {b a : Nat} {m : Memory} {d : Byte} (hb : b < a) (hm : Memory.Above b m) :
    Memory.Above b (Memory.put font m a d) := by
  induction m with
  | nil =>
    by_cases h : d = Memory.background font a <;> simp [Memory.put, h, Memory.Above, hb]
  | cons c rest ih =>
    obtain ⟨e, w⟩ := c
    have he : b < e := hm (e, w) (by simp)
    have hr : Memory.Above b rest := fun x hx => hm x (by simp [hx])
    simp only [Memory.put]
    split_ifs
    · exact hm
    · intro x hx
      rcases List.mem_cons.mp hx with rfl | hx
      · exact hb
      · exact hm x hx
    · exact hr
    · intro x hx
      rcases List.mem_cons.mp hx with rfl | hx
      · exact hb
      · exact hr x hx
    · intro x hx
      rcases List.mem_cons.mp hx with rfl | hx
      · exact he
      · exact ih hr x hx

/-- A put inside the address space keeps the canonical form. -/
theorem Memory.put_wf {m : Memory} (hm : Memory.wf font m = true) {a : Nat} (ha : a < memSize) (d : Byte) :
    Memory.wf font (Memory.put font m a d) = true := by
  induction m with
  | nil =>
    by_cases h : d = Memory.background font a <;> simp [Memory.put, h, Memory.wf_iff, ha]
  | cons c rest ih =>
    obtain ⟨b, w⟩ := c
    obtain ⟨hab, hb, hw, hr⟩ := Memory.wf_cons.mp hm
    simp only [Memory.put]
    split_ifs with h1 h2 h3 h4
    · exact hm
    · refine Memory.wf_cons.mpr ⟨?_, ha, h2, hm⟩
      intro x hx
      rcases List.mem_cons.mp hx with rfl | hx
      · exact h1
      · exact Nat.lt_trans h1 (hab x hx)
    · exact hr
    · subst h3
      exact Memory.wf_cons.mpr ⟨hab, ha, h4, hr⟩
    · exact Memory.wf_cons.mpr ⟨Memory.above_put (by omega) hab, hb, hw, ih hr⟩

/-- A write keeps the canonical form. -/
theorem Memory.write_wf {m : Memory} (hm : Memory.wf font m = true) (a : Nat) (d : Byte) :
    Memory.wf font (Memory.write font m a d) = true := by
  unfold Memory.write
  split_ifs with h
  · exact Memory.put_wf hm h d
  · exact hm

/-- A read after a write: the byte written at its address, every other byte as before (20_memory R59 d). -/
theorem Memory.read_write {m : Memory} (hm : Memory.wf font m = true) {a : Nat} (ha : a < memSize) (d : Byte) (b : Nat) :
    Memory.read font (Memory.write font m a d) b = if b = a then d else Memory.read font m b := by
  rw [Memory.write, if_pos ha]
  split_ifs with h
  · rw [h, Memory.read_put_same hm]
  · exact Memory.read_put_ne h m d hm

/-- A list of writes keeps the canonical form. -/
theorem Memory.writeList_wf {m : Memory} (hm : Memory.wf font m = true) (a : Nat) (ds : List Byte) :
    Memory.wf font (Memory.writeList font m a ds) = true := by
  induction ds generalizing m a with
  | nil => exact hm
  | cons d rest ih => exact ih (Memory.write_wf hm a d) (a + 1)

/-- A read after consecutive writes: byte k of the list at `a + k`, every other byte as before. -/
theorem Memory.read_writeList {m : Memory} (hm : Memory.wf font m = true) (ds : List Byte) (a b : Nat)
    (h : a + ds.length ≤ memSize) :
    Memory.read font (Memory.writeList font m a ds) b =
      if a ≤ b then (ds[b - a]?).getD (Memory.read font m b) else Memory.read font m b := by
  induction ds generalizing m a with
  | nil => simp [Memory.writeList]
  | cons d rest ih =>
    have hlen : a + (rest.length + 1) ≤ memSize := by simpa using h
    rw [Memory.writeList, ih (Memory.write_wf hm a d) (a + 1) (by omega), Memory.read_write hm (by omega)]
    rcases Nat.lt_trichotomy b a with hlt | heq | hgt
    · rw [if_neg (by omega), if_neg (by omega), if_neg (by omega)]
    · subst heq
      simp
    · rw [if_pos (by omega), if_neg (by omega), if_pos (by omega)]
      have : b - a = (b - (a + 1)) + 1 := by omega
      rw [this, List.getElem?_cons_succ]

/-- Two canonical memories over one font that read alike are equal data. -/
theorem Memory.eq_of_read_eq {m m' : Memory} (hm : Memory.wf font m = true) (hm' : Memory.wf font m' = true)
    (h : ∀ a, Memory.read font m a = Memory.read font m' a) : m = m' := by
  induction m generalizing m' with
  | nil =>
    cases m' with
    | nil => rfl
    | cons c rest =>
      obtain ⟨_, _, hw, _⟩ := Memory.wf_cons.mp hm'
      exact absurd (by simpa [Memory.read] using (h c.1).symm) hw
  | cons c rest ih =>
    obtain ⟨hab, _, hw, hr⟩ := Memory.wf_cons.mp hm
    cases m' with
    | nil => exact absurd (by simpa [Memory.read] using h c.1) hw
    | cons c' rest' =>
      obtain ⟨hab', _, hw', hr'⟩ := Memory.wf_cons.mp hm'
      have read_below : ∀ {d e : Host.Cell} {q : Memory}, d.1 < e.1 → Memory.Above e.1 q →
          Memory.read font (e :: q) d.1 = Memory.background font d.1 := by
        intro d e q hde hq
        refine Memory.read_of_above fun x hx => ?_
        rcases List.mem_cons.mp hx with rfl | hx
        · exact hde
        · exact Nat.lt_trans hde (hq x hx)
      have hc : c.1 = c'.1 := by
        rcases Nat.lt_trichotomy c.1 c'.1 with hlt | heq | hgt
        · exact absurd ((by simpa [Memory.read] using h c.1 : c.2 = _).trans (read_below hlt hab')) hw
        · exact heq
        · exact absurd ((by simpa [Memory.read] using (h c'.1).symm : c'.2 = _).trans (read_below hgt hab)) hw'
      have hd : c.2 = c'.2 := by simpa [Memory.read, hc] using h c.1
      have hrest : rest = rest' := by
        refine ih hr hr' fun a => ?_
        by_cases ha : a = c.1
        · rw [ha, Memory.read_of_above hab, hc, Memory.read_of_above hab']
        · simpa [Memory.read, ha, hc ▸ ha] using h a
      rw [hrest, Prod.ext hc hd]

end Sys2Proof.Machine
end

