-- ==== Sys2Proof/Laws/State.lean ====
section
/-! SUPPORT. One lemma per field per update of the state, each true by rfl, so that no proof unfolds a record update;
and the operations that are another name of an update. -/

namespace Sys2Proof.Machine

variable (s : State)

/-! ### setReg -/

@[simp] theorem State.setReg_cfg (x : Reg) (d : Byte) : (s.setReg x d).cfg = s.cfg := rfl
@[simp] theorem State.setReg_mem (x : Reg) (d : Byte) : (s.setReg x d).mem = s.mem := rfl
@[simp] theorem State.setReg_v (x : Reg) (d : Byte) : (s.setReg x d).v = s.v.set x.toNat d x.isLt := rfl
@[simp] theorem State.setReg_index (x : Reg) (d : Byte) : (s.setReg x d).index = s.index := rfl
@[simp] theorem State.setReg_pc (x : Reg) (d : Byte) : (s.setReg x d).pc = s.pc := rfl
@[simp] theorem State.setReg_stack (x : Reg) (d : Byte) : (s.setReg x d).stack = s.stack := rfl
@[simp] theorem State.setReg_sp (x : Reg) (d : Byte) : (s.setReg x d).sp = s.sp := rfl
@[simp] theorem State.setReg_delayTimer (x : Reg) (d : Byte) : (s.setReg x d).delayTimer = s.delayTimer := rfl
@[simp] theorem State.setReg_soundTimer (x : Reg) (d : Byte) : (s.setReg x d).soundTimer = s.soundTimer := rfl
@[simp] theorem State.setReg_display (x : Reg) (d : Byte) : (s.setReg x d).display = s.display := rfl
@[simp] theorem State.setReg_displayDirty (x : Reg) (d : Byte) : (s.setReg x d).displayDirty = s.displayDirty := rfl
@[simp] theorem State.setReg_displayWaitCounter (x : Reg) (d : Byte) : (s.setReg x d).displayWaitCounter = s.displayWaitCounter := rfl
@[simp] theorem State.setReg_keyLastPressed (x : Reg) (d : Byte) : (s.setReg x d).keyLastPressed = s.keyLastPressed := rfl
@[simp] theorem State.setReg_lastTimerUpdate (x : Reg) (d : Byte) : (s.setReg x d).lastTimerUpdate = s.lastTimerUpdate := rfl
@[simp] theorem State.setReg_nextFrameDue (x : Reg) (d : Byte) : (s.setReg x d).nextFrameDue = s.nextFrameDue := rfl
@[simp] theorem State.setReg_fault (x : Reg) (d : Byte) : (s.setReg x d).fault = s.fault := rfl
@[simp] theorem State.setReg_inputs (x : Reg) (d : Byte) : (s.setReg x d).inputs = s.inputs := rfl
@[simp] theorem State.setReg_cycle (x : Reg) (d : Byte) : (s.setReg x d).cycle = s.cycle := rfl
@[simp] theorem State.setReg_out (x : Reg) (d : Byte) : (s.setReg x d).out = s.out := rfl

/-! ### setIndex -/

@[simp] theorem State.setIndex_cfg (d : Word) : (s.setIndex d).cfg = s.cfg := rfl
@[simp] theorem State.setIndex_mem (d : Word) : (s.setIndex d).mem = s.mem := rfl
@[simp] theorem State.setIndex_v (d : Word) : (s.setIndex d).v = s.v := rfl
@[simp] theorem State.setIndex_index (d : Word) : (s.setIndex d).index = d := rfl
@[simp] theorem State.setIndex_pc (d : Word) : (s.setIndex d).pc = s.pc := rfl
@[simp] theorem State.setIndex_stack (d : Word) : (s.setIndex d).stack = s.stack := rfl
@[simp] theorem State.setIndex_sp (d : Word) : (s.setIndex d).sp = s.sp := rfl
@[simp] theorem State.setIndex_delayTimer (d : Word) : (s.setIndex d).delayTimer = s.delayTimer := rfl
@[simp] theorem State.setIndex_soundTimer (d : Word) : (s.setIndex d).soundTimer = s.soundTimer := rfl
@[simp] theorem State.setIndex_display (d : Word) : (s.setIndex d).display = s.display := rfl
@[simp] theorem State.setIndex_displayDirty (d : Word) : (s.setIndex d).displayDirty = s.displayDirty := rfl
@[simp] theorem State.setIndex_displayWaitCounter (d : Word) : (s.setIndex d).displayWaitCounter = s.displayWaitCounter := rfl
@[simp] theorem State.setIndex_keyLastPressed (d : Word) : (s.setIndex d).keyLastPressed = s.keyLastPressed := rfl
@[simp] theorem State.setIndex_lastTimerUpdate (d : Word) : (s.setIndex d).lastTimerUpdate = s.lastTimerUpdate := rfl
@[simp] theorem State.setIndex_nextFrameDue (d : Word) : (s.setIndex d).nextFrameDue = s.nextFrameDue := rfl
@[simp] theorem State.setIndex_fault (d : Word) : (s.setIndex d).fault = s.fault := rfl
@[simp] theorem State.setIndex_inputs (d : Word) : (s.setIndex d).inputs = s.inputs := rfl
@[simp] theorem State.setIndex_cycle (d : Word) : (s.setIndex d).cycle = s.cycle := rfl
@[simp] theorem State.setIndex_out (d : Word) : (s.setIndex d).out = s.out := rfl

/-! ### setPc -/

@[simp] theorem State.setPc_cfg (d : Word) : (s.setPc d).cfg = s.cfg := rfl
@[simp] theorem State.setPc_mem (d : Word) : (s.setPc d).mem = s.mem := rfl
@[simp] theorem State.setPc_v (d : Word) : (s.setPc d).v = s.v := rfl
@[simp] theorem State.setPc_index (d : Word) : (s.setPc d).index = s.index := rfl
@[simp] theorem State.setPc_pc (d : Word) : (s.setPc d).pc = d := rfl
@[simp] theorem State.setPc_stack (d : Word) : (s.setPc d).stack = s.stack := rfl
@[simp] theorem State.setPc_sp (d : Word) : (s.setPc d).sp = s.sp := rfl
@[simp] theorem State.setPc_delayTimer (d : Word) : (s.setPc d).delayTimer = s.delayTimer := rfl
@[simp] theorem State.setPc_soundTimer (d : Word) : (s.setPc d).soundTimer = s.soundTimer := rfl
@[simp] theorem State.setPc_display (d : Word) : (s.setPc d).display = s.display := rfl
@[simp] theorem State.setPc_displayDirty (d : Word) : (s.setPc d).displayDirty = s.displayDirty := rfl
@[simp] theorem State.setPc_displayWaitCounter (d : Word) : (s.setPc d).displayWaitCounter = s.displayWaitCounter := rfl
@[simp] theorem State.setPc_keyLastPressed (d : Word) : (s.setPc d).keyLastPressed = s.keyLastPressed := rfl
@[simp] theorem State.setPc_lastTimerUpdate (d : Word) : (s.setPc d).lastTimerUpdate = s.lastTimerUpdate := rfl
@[simp] theorem State.setPc_nextFrameDue (d : Word) : (s.setPc d).nextFrameDue = s.nextFrameDue := rfl
@[simp] theorem State.setPc_fault (d : Word) : (s.setPc d).fault = s.fault := rfl
@[simp] theorem State.setPc_inputs (d : Word) : (s.setPc d).inputs = s.inputs := rfl
@[simp] theorem State.setPc_cycle (d : Word) : (s.setPc d).cycle = s.cycle := rfl
@[simp] theorem State.setPc_out (d : Word) : (s.setPc d).out = s.out := rfl

/-! ### writeByte -/

@[simp] theorem State.writeByte_cfg (a : Nat) (d : Byte) : (s.writeByte a d).cfg = s.cfg := rfl
@[simp] theorem State.writeByte_mem (a : Nat) (d : Byte) : (s.writeByte a d).mem = Memory.write s.cfg.font s.mem a d := rfl
@[simp] theorem State.writeByte_v (a : Nat) (d : Byte) : (s.writeByte a d).v = s.v := rfl
@[simp] theorem State.writeByte_index (a : Nat) (d : Byte) : (s.writeByte a d).index = s.index := rfl
@[simp] theorem State.writeByte_pc (a : Nat) (d : Byte) : (s.writeByte a d).pc = s.pc := rfl
@[simp] theorem State.writeByte_stack (a : Nat) (d : Byte) : (s.writeByte a d).stack = s.stack := rfl
@[simp] theorem State.writeByte_sp (a : Nat) (d : Byte) : (s.writeByte a d).sp = s.sp := rfl
@[simp] theorem State.writeByte_delayTimer (a : Nat) (d : Byte) : (s.writeByte a d).delayTimer = s.delayTimer := rfl
@[simp] theorem State.writeByte_soundTimer (a : Nat) (d : Byte) : (s.writeByte a d).soundTimer = s.soundTimer := rfl
@[simp] theorem State.writeByte_display (a : Nat) (d : Byte) : (s.writeByte a d).display = s.display := rfl
@[simp] theorem State.writeByte_displayDirty (a : Nat) (d : Byte) : (s.writeByte a d).displayDirty = s.displayDirty := rfl
@[simp] theorem State.writeByte_displayWaitCounter (a : Nat) (d : Byte) : (s.writeByte a d).displayWaitCounter = s.displayWaitCounter := rfl
@[simp] theorem State.writeByte_keyLastPressed (a : Nat) (d : Byte) : (s.writeByte a d).keyLastPressed = s.keyLastPressed := rfl
@[simp] theorem State.writeByte_lastTimerUpdate (a : Nat) (d : Byte) : (s.writeByte a d).lastTimerUpdate = s.lastTimerUpdate := rfl
@[simp] theorem State.writeByte_nextFrameDue (a : Nat) (d : Byte) : (s.writeByte a d).nextFrameDue = s.nextFrameDue := rfl
@[simp] theorem State.writeByte_fault (a : Nat) (d : Byte) : (s.writeByte a d).fault = s.fault := rfl
@[simp] theorem State.writeByte_inputs (a : Nat) (d : Byte) : (s.writeByte a d).inputs = s.inputs := rfl
@[simp] theorem State.writeByte_cycle (a : Nat) (d : Byte) : (s.writeByte a d).cycle = s.cycle := rfl
@[simp] theorem State.writeByte_out (a : Nat) (d : Byte) : (s.writeByte a d).out = s.out := rfl

/-! ### writeBytes -/

@[simp] theorem State.writeBytes_cfg (a : Nat) (ds : List Byte) : (s.writeBytes a ds).cfg = s.cfg := rfl
@[simp] theorem State.writeBytes_mem (a : Nat) (ds : List Byte) : (s.writeBytes a ds).mem = Memory.writeList s.cfg.font s.mem a ds := rfl
@[simp] theorem State.writeBytes_v (a : Nat) (ds : List Byte) : (s.writeBytes a ds).v = s.v := rfl
@[simp] theorem State.writeBytes_index (a : Nat) (ds : List Byte) : (s.writeBytes a ds).index = s.index := rfl
@[simp] theorem State.writeBytes_pc (a : Nat) (ds : List Byte) : (s.writeBytes a ds).pc = s.pc := rfl
@[simp] theorem State.writeBytes_stack (a : Nat) (ds : List Byte) : (s.writeBytes a ds).stack = s.stack := rfl
@[simp] theorem State.writeBytes_sp (a : Nat) (ds : List Byte) : (s.writeBytes a ds).sp = s.sp := rfl
@[simp] theorem State.writeBytes_delayTimer (a : Nat) (ds : List Byte) : (s.writeBytes a ds).delayTimer = s.delayTimer := rfl
@[simp] theorem State.writeBytes_soundTimer (a : Nat) (ds : List Byte) : (s.writeBytes a ds).soundTimer = s.soundTimer := rfl
@[simp] theorem State.writeBytes_display (a : Nat) (ds : List Byte) : (s.writeBytes a ds).display = s.display := rfl
@[simp] theorem State.writeBytes_displayDirty (a : Nat) (ds : List Byte) : (s.writeBytes a ds).displayDirty = s.displayDirty := rfl
@[simp] theorem State.writeBytes_displayWaitCounter (a : Nat) (ds : List Byte) : (s.writeBytes a ds).displayWaitCounter = s.displayWaitCounter :=
    rfl
@[simp] theorem State.writeBytes_keyLastPressed (a : Nat) (ds : List Byte) : (s.writeBytes a ds).keyLastPressed = s.keyLastPressed := rfl
@[simp] theorem State.writeBytes_lastTimerUpdate (a : Nat) (ds : List Byte) : (s.writeBytes a ds).lastTimerUpdate = s.lastTimerUpdate := rfl
@[simp] theorem State.writeBytes_nextFrameDue (a : Nat) (ds : List Byte) : (s.writeBytes a ds).nextFrameDue = s.nextFrameDue := rfl
@[simp] theorem State.writeBytes_fault (a : Nat) (ds : List Byte) : (s.writeBytes a ds).fault = s.fault := rfl
@[simp] theorem State.writeBytes_inputs (a : Nat) (ds : List Byte) : (s.writeBytes a ds).inputs = s.inputs := rfl
@[simp] theorem State.writeBytes_cycle (a : Nat) (ds : List Byte) : (s.writeBytes a ds).cycle = s.cycle := rfl
@[simp] theorem State.writeBytes_out (a : Nat) (ds : List Byte) : (s.writeBytes a ds).out = s.out := rfl

/-! ### raiseAddressRangeFault -/

@[simp] theorem State.raiseAddressRangeFault_cfg (a : FaultAddr) : (s.raiseAddressRangeFault a).cfg = s.cfg := rfl
@[simp] theorem State.raiseAddressRangeFault_mem (a : FaultAddr) : (s.raiseAddressRangeFault a).mem = s.mem := rfl
@[simp] theorem State.raiseAddressRangeFault_v (a : FaultAddr) : (s.raiseAddressRangeFault a).v = s.v := rfl
@[simp] theorem State.raiseAddressRangeFault_index (a : FaultAddr) : (s.raiseAddressRangeFault a).index = s.index := rfl
@[simp] theorem State.raiseAddressRangeFault_pc (a : FaultAddr) : (s.raiseAddressRangeFault a).pc = s.pc := rfl
@[simp] theorem State.raiseAddressRangeFault_stack (a : FaultAddr) : (s.raiseAddressRangeFault a).stack = s.stack := rfl
@[simp] theorem State.raiseAddressRangeFault_sp (a : FaultAddr) : (s.raiseAddressRangeFault a).sp = s.sp := rfl
@[simp] theorem State.raiseAddressRangeFault_delayTimer (a : FaultAddr) : (s.raiseAddressRangeFault a).delayTimer = s.delayTimer := rfl
@[simp] theorem State.raiseAddressRangeFault_soundTimer (a : FaultAddr) : (s.raiseAddressRangeFault a).soundTimer = s.soundTimer := rfl
@[simp] theorem State.raiseAddressRangeFault_display (a : FaultAddr) : (s.raiseAddressRangeFault a).display = s.display := rfl
@[simp] theorem State.raiseAddressRangeFault_displayDirty (a : FaultAddr) : (s.raiseAddressRangeFault a).displayDirty = s.displayDirty :=
    rfl
@[simp] theorem State.raiseAddressRangeFault_displayWaitCounter (a : FaultAddr) :
    (s.raiseAddressRangeFault a).displayWaitCounter = s.displayWaitCounter := rfl
@[simp] theorem State.raiseAddressRangeFault_keyLastPressed (a : FaultAddr) : (s.raiseAddressRangeFault a).keyLastPressed = s.keyLastPressed :=
    rfl
@[simp] theorem State.raiseAddressRangeFault_lastTimerUpdate (a : FaultAddr) :
    (s.raiseAddressRangeFault a).lastTimerUpdate = s.lastTimerUpdate := rfl
@[simp] theorem State.raiseAddressRangeFault_nextFrameDue (a : FaultAddr) : (s.raiseAddressRangeFault a).nextFrameDue = s.nextFrameDue :=
    rfl
@[simp] theorem State.raiseAddressRangeFault_fault (a : FaultAddr) : (s.raiseAddressRangeFault a).fault = some a := rfl
@[simp] theorem State.raiseAddressRangeFault_inputs (a : FaultAddr) : (s.raiseAddressRangeFault a).inputs = s.inputs := rfl
@[simp] theorem State.raiseAddressRangeFault_cycle (a : FaultAddr) : (s.raiseAddressRangeFault a).cycle = s.cycle := rfl
@[simp] theorem State.raiseAddressRangeFault_out (a : FaultAddr) : (s.raiseAddressRangeFault a).out = s.out := rfl

/-! ### reportUnknown -/

@[simp] theorem State.reportUnknown_cfg (w : Word) : (s.reportUnknown w).cfg = s.cfg := rfl
@[simp] theorem State.reportUnknown_mem (w : Word) : (s.reportUnknown w).mem = s.mem := rfl
@[simp] theorem State.reportUnknown_v (w : Word) : (s.reportUnknown w).v = s.v := rfl
@[simp] theorem State.reportUnknown_index (w : Word) : (s.reportUnknown w).index = s.index := rfl
@[simp] theorem State.reportUnknown_pc (w : Word) : (s.reportUnknown w).pc = s.pc := rfl
@[simp] theorem State.reportUnknown_stack (w : Word) : (s.reportUnknown w).stack = s.stack := rfl
@[simp] theorem State.reportUnknown_sp (w : Word) : (s.reportUnknown w).sp = s.sp := rfl
@[simp] theorem State.reportUnknown_delayTimer (w : Word) : (s.reportUnknown w).delayTimer = s.delayTimer := rfl
@[simp] theorem State.reportUnknown_soundTimer (w : Word) : (s.reportUnknown w).soundTimer = s.soundTimer := rfl
@[simp] theorem State.reportUnknown_display (w : Word) : (s.reportUnknown w).display = s.display := rfl
@[simp] theorem State.reportUnknown_displayDirty (w : Word) : (s.reportUnknown w).displayDirty = s.displayDirty := rfl
@[simp] theorem State.reportUnknown_displayWaitCounter (w : Word) : (s.reportUnknown w).displayWaitCounter = s.displayWaitCounter := rfl
@[simp] theorem State.reportUnknown_keyLastPressed (w : Word) : (s.reportUnknown w).keyLastPressed = s.keyLastPressed := rfl
@[simp] theorem State.reportUnknown_lastTimerUpdate (w : Word) : (s.reportUnknown w).lastTimerUpdate = s.lastTimerUpdate := rfl
@[simp] theorem State.reportUnknown_nextFrameDue (w : Word) : (s.reportUnknown w).nextFrameDue = s.nextFrameDue := rfl
@[simp] theorem State.reportUnknown_fault (w : Word) : (s.reportUnknown w).fault = s.fault := rfl
@[simp] theorem State.reportUnknown_inputs (w : Word) : (s.reportUnknown w).inputs = s.inputs := rfl
@[simp] theorem State.reportUnknown_cycle (w : Word) : (s.reportUnknown w).cycle = s.cycle := rfl
@[simp] theorem State.reportUnknown_out (w : Word) : (s.reportUnknown w).out = { s.out with unknown := some w } := rfl

/-! ### reportStackOverflow -/

@[simp] theorem State.reportStackOverflow_cfg : s.reportStackOverflow.cfg = s.cfg := rfl
@[simp] theorem State.reportStackOverflow_mem : s.reportStackOverflow.mem = s.mem := rfl
@[simp] theorem State.reportStackOverflow_v : s.reportStackOverflow.v = s.v := rfl
@[simp] theorem State.reportStackOverflow_index : s.reportStackOverflow.index = s.index := rfl
@[simp] theorem State.reportStackOverflow_pc : s.reportStackOverflow.pc = s.pc := rfl
@[simp] theorem State.reportStackOverflow_stack : s.reportStackOverflow.stack = s.stack := rfl
@[simp] theorem State.reportStackOverflow_sp : s.reportStackOverflow.sp = s.sp := rfl
@[simp] theorem State.reportStackOverflow_delayTimer : s.reportStackOverflow.delayTimer = s.delayTimer := rfl
@[simp] theorem State.reportStackOverflow_soundTimer : s.reportStackOverflow.soundTimer = s.soundTimer := rfl
@[simp] theorem State.reportStackOverflow_display : s.reportStackOverflow.display = s.display := rfl
@[simp] theorem State.reportStackOverflow_displayDirty : s.reportStackOverflow.displayDirty = s.displayDirty := rfl
@[simp] theorem State.reportStackOverflow_displayWaitCounter : s.reportStackOverflow.displayWaitCounter = s.displayWaitCounter := rfl
@[simp] theorem State.reportStackOverflow_keyLastPressed : s.reportStackOverflow.keyLastPressed = s.keyLastPressed := rfl
@[simp] theorem State.reportStackOverflow_lastTimerUpdate : s.reportStackOverflow.lastTimerUpdate = s.lastTimerUpdate := rfl
@[simp] theorem State.reportStackOverflow_nextFrameDue : s.reportStackOverflow.nextFrameDue = s.nextFrameDue := rfl
@[simp] theorem State.reportStackOverflow_fault : s.reportStackOverflow.fault = s.fault := rfl
@[simp] theorem State.reportStackOverflow_inputs : s.reportStackOverflow.inputs = s.inputs := rfl
@[simp] theorem State.reportStackOverflow_cycle : s.reportStackOverflow.cycle = s.cycle := rfl
@[simp] theorem State.reportStackOverflow_out : s.reportStackOverflow.out = { s.out with stackOverflow := true } := rfl

/-! ### reportStackUnderflow -/

@[simp] theorem State.reportStackUnderflow_cfg : s.reportStackUnderflow.cfg = s.cfg := rfl
@[simp] theorem State.reportStackUnderflow_mem : s.reportStackUnderflow.mem = s.mem := rfl
@[simp] theorem State.reportStackUnderflow_v : s.reportStackUnderflow.v = s.v := rfl
@[simp] theorem State.reportStackUnderflow_index : s.reportStackUnderflow.index = s.index := rfl
@[simp] theorem State.reportStackUnderflow_pc : s.reportStackUnderflow.pc = s.pc := rfl
@[simp] theorem State.reportStackUnderflow_stack : s.reportStackUnderflow.stack = s.stack := rfl
@[simp] theorem State.reportStackUnderflow_sp : s.reportStackUnderflow.sp = s.sp := rfl
@[simp] theorem State.reportStackUnderflow_delayTimer : s.reportStackUnderflow.delayTimer = s.delayTimer := rfl
@[simp] theorem State.reportStackUnderflow_soundTimer : s.reportStackUnderflow.soundTimer = s.soundTimer := rfl
@[simp] theorem State.reportStackUnderflow_display : s.reportStackUnderflow.display = s.display := rfl
@[simp] theorem State.reportStackUnderflow_displayDirty : s.reportStackUnderflow.displayDirty = s.displayDirty := rfl
@[simp] theorem State.reportStackUnderflow_displayWaitCounter : s.reportStackUnderflow.displayWaitCounter = s.displayWaitCounter := rfl
@[simp] theorem State.reportStackUnderflow_keyLastPressed : s.reportStackUnderflow.keyLastPressed = s.keyLastPressed := rfl
@[simp] theorem State.reportStackUnderflow_lastTimerUpdate : s.reportStackUnderflow.lastTimerUpdate = s.lastTimerUpdate := rfl
@[simp] theorem State.reportStackUnderflow_nextFrameDue : s.reportStackUnderflow.nextFrameDue = s.nextFrameDue := rfl
@[simp] theorem State.reportStackUnderflow_fault : s.reportStackUnderflow.fault = s.fault := rfl
@[simp] theorem State.reportStackUnderflow_inputs : s.reportStackUnderflow.inputs = s.inputs := rfl
@[simp] theorem State.reportStackUnderflow_cycle : s.reportStackUnderflow.cycle = s.cycle := rfl
@[simp] theorem State.reportStackUnderflow_out : s.reportStackUnderflow.out = { s.out with stackUnderflow := true } := rfl

/-! ### setDelayTimer -/

@[simp] theorem State.setDelayTimer_cfg (d : Byte) : (s.setDelayTimer d).cfg = s.cfg := rfl
@[simp] theorem State.setDelayTimer_mem (d : Byte) : (s.setDelayTimer d).mem = s.mem := rfl
@[simp] theorem State.setDelayTimer_v (d : Byte) : (s.setDelayTimer d).v = s.v := rfl
@[simp] theorem State.setDelayTimer_index (d : Byte) : (s.setDelayTimer d).index = s.index := rfl
@[simp] theorem State.setDelayTimer_pc (d : Byte) : (s.setDelayTimer d).pc = s.pc := rfl
@[simp] theorem State.setDelayTimer_stack (d : Byte) : (s.setDelayTimer d).stack = s.stack := rfl
@[simp] theorem State.setDelayTimer_sp (d : Byte) : (s.setDelayTimer d).sp = s.sp := rfl
@[simp] theorem State.setDelayTimer_delayTimer (d : Byte) : (s.setDelayTimer d).delayTimer = d := rfl
@[simp] theorem State.setDelayTimer_soundTimer (d : Byte) : (s.setDelayTimer d).soundTimer = s.soundTimer := rfl
@[simp] theorem State.setDelayTimer_display (d : Byte) : (s.setDelayTimer d).display = s.display := rfl
@[simp] theorem State.setDelayTimer_displayDirty (d : Byte) : (s.setDelayTimer d).displayDirty = s.displayDirty := rfl
@[simp] theorem State.setDelayTimer_displayWaitCounter (d : Byte) : (s.setDelayTimer d).displayWaitCounter = s.displayWaitCounter := rfl
@[simp] theorem State.setDelayTimer_keyLastPressed (d : Byte) : (s.setDelayTimer d).keyLastPressed = s.keyLastPressed := rfl
@[simp] theorem State.setDelayTimer_lastTimerUpdate (d : Byte) : (s.setDelayTimer d).lastTimerUpdate = s.lastTimerUpdate := rfl
@[simp] theorem State.setDelayTimer_nextFrameDue (d : Byte) : (s.setDelayTimer d).nextFrameDue = s.nextFrameDue := rfl
@[simp] theorem State.setDelayTimer_fault (d : Byte) : (s.setDelayTimer d).fault = s.fault := rfl
@[simp] theorem State.setDelayTimer_inputs (d : Byte) : (s.setDelayTimer d).inputs = s.inputs := rfl
@[simp] theorem State.setDelayTimer_cycle (d : Byte) : (s.setDelayTimer d).cycle = s.cycle := rfl
@[simp] theorem State.setDelayTimer_out (d : Byte) : (s.setDelayTimer d).out = s.out := rfl

/-! ### setSoundTimer -/

@[simp] theorem State.setSoundTimer_cfg (d : Byte) : (s.setSoundTimer d).cfg = s.cfg := rfl
@[simp] theorem State.setSoundTimer_mem (d : Byte) : (s.setSoundTimer d).mem = s.mem := rfl
@[simp] theorem State.setSoundTimer_v (d : Byte) : (s.setSoundTimer d).v = s.v := rfl
@[simp] theorem State.setSoundTimer_index (d : Byte) : (s.setSoundTimer d).index = s.index := rfl
@[simp] theorem State.setSoundTimer_pc (d : Byte) : (s.setSoundTimer d).pc = s.pc := rfl
@[simp] theorem State.setSoundTimer_stack (d : Byte) : (s.setSoundTimer d).stack = s.stack := rfl
@[simp] theorem State.setSoundTimer_sp (d : Byte) : (s.setSoundTimer d).sp = s.sp := rfl
@[simp] theorem State.setSoundTimer_delayTimer (d : Byte) : (s.setSoundTimer d).delayTimer = s.delayTimer := rfl
@[simp] theorem State.setSoundTimer_soundTimer (d : Byte) : (s.setSoundTimer d).soundTimer = d := rfl
@[simp] theorem State.setSoundTimer_display (d : Byte) : (s.setSoundTimer d).display = s.display := rfl
@[simp] theorem State.setSoundTimer_displayDirty (d : Byte) : (s.setSoundTimer d).displayDirty = s.displayDirty := rfl
@[simp] theorem State.setSoundTimer_displayWaitCounter (d : Byte) : (s.setSoundTimer d).displayWaitCounter = s.displayWaitCounter := rfl
@[simp] theorem State.setSoundTimer_keyLastPressed (d : Byte) : (s.setSoundTimer d).keyLastPressed = s.keyLastPressed := rfl
@[simp] theorem State.setSoundTimer_lastTimerUpdate (d : Byte) : (s.setSoundTimer d).lastTimerUpdate = s.lastTimerUpdate := rfl
@[simp] theorem State.setSoundTimer_nextFrameDue (d : Byte) : (s.setSoundTimer d).nextFrameDue = s.nextFrameDue := rfl
@[simp] theorem State.setSoundTimer_fault (d : Byte) : (s.setSoundTimer d).fault = s.fault := rfl
@[simp] theorem State.setSoundTimer_inputs (d : Byte) : (s.setSoundTimer d).inputs = s.inputs := rfl
@[simp] theorem State.setSoundTimer_cycle (d : Byte) : (s.setSoundTimer d).cycle = s.cycle := rfl
@[simp] theorem State.setSoundTimer_out (d : Byte) : (s.setSoundTimer d).out = s.out := rfl

/-! ### setDisplay -/

@[simp] theorem State.setDisplay_cfg (d : Display) : (s.setDisplay d).cfg = s.cfg := rfl
@[simp] theorem State.setDisplay_mem (d : Display) : (s.setDisplay d).mem = s.mem := rfl
@[simp] theorem State.setDisplay_v (d : Display) : (s.setDisplay d).v = s.v := rfl
@[simp] theorem State.setDisplay_index (d : Display) : (s.setDisplay d).index = s.index := rfl
@[simp] theorem State.setDisplay_pc (d : Display) : (s.setDisplay d).pc = s.pc := rfl
@[simp] theorem State.setDisplay_stack (d : Display) : (s.setDisplay d).stack = s.stack := rfl
@[simp] theorem State.setDisplay_sp (d : Display) : (s.setDisplay d).sp = s.sp := rfl
@[simp] theorem State.setDisplay_delayTimer (d : Display) : (s.setDisplay d).delayTimer = s.delayTimer := rfl
@[simp] theorem State.setDisplay_soundTimer (d : Display) : (s.setDisplay d).soundTimer = s.soundTimer := rfl
@[simp] theorem State.setDisplay_display (d : Display) : (s.setDisplay d).display = d := rfl
@[simp] theorem State.setDisplay_displayDirty (d : Display) : (s.setDisplay d).displayDirty = s.displayDirty := rfl
@[simp] theorem State.setDisplay_displayWaitCounter (d : Display) : (s.setDisplay d).displayWaitCounter = s.displayWaitCounter := rfl
@[simp] theorem State.setDisplay_keyLastPressed (d : Display) : (s.setDisplay d).keyLastPressed = s.keyLastPressed := rfl
@[simp] theorem State.setDisplay_lastTimerUpdate (d : Display) : (s.setDisplay d).lastTimerUpdate = s.lastTimerUpdate := rfl
@[simp] theorem State.setDisplay_nextFrameDue (d : Display) : (s.setDisplay d).nextFrameDue = s.nextFrameDue := rfl
@[simp] theorem State.setDisplay_fault (d : Display) : (s.setDisplay d).fault = s.fault := rfl
@[simp] theorem State.setDisplay_inputs (d : Display) : (s.setDisplay d).inputs = s.inputs := rfl
@[simp] theorem State.setDisplay_cycle (d : Display) : (s.setDisplay d).cycle = s.cycle := rfl
@[simp] theorem State.setDisplay_out (d : Display) : (s.setDisplay d).out = s.out := rfl

/-! ### markDirty -/

@[simp] theorem State.markDirty_cfg : s.markDirty.cfg = s.cfg := rfl
@[simp] theorem State.markDirty_mem : s.markDirty.mem = s.mem := rfl
@[simp] theorem State.markDirty_v : s.markDirty.v = s.v := rfl
@[simp] theorem State.markDirty_index : s.markDirty.index = s.index := rfl
@[simp] theorem State.markDirty_pc : s.markDirty.pc = s.pc := rfl
@[simp] theorem State.markDirty_stack : s.markDirty.stack = s.stack := rfl
@[simp] theorem State.markDirty_sp : s.markDirty.sp = s.sp := rfl
@[simp] theorem State.markDirty_delayTimer : s.markDirty.delayTimer = s.delayTimer := rfl
@[simp] theorem State.markDirty_soundTimer : s.markDirty.soundTimer = s.soundTimer := rfl
@[simp] theorem State.markDirty_display : s.markDirty.display = s.display := rfl
@[simp] theorem State.markDirty_displayDirty : s.markDirty.displayDirty = true := rfl
@[simp] theorem State.markDirty_displayWaitCounter : s.markDirty.displayWaitCounter = s.displayWaitCounter := rfl
@[simp] theorem State.markDirty_keyLastPressed : s.markDirty.keyLastPressed = s.keyLastPressed := rfl
@[simp] theorem State.markDirty_lastTimerUpdate : s.markDirty.lastTimerUpdate = s.lastTimerUpdate := rfl
@[simp] theorem State.markDirty_nextFrameDue : s.markDirty.nextFrameDue = s.nextFrameDue := rfl
@[simp] theorem State.markDirty_fault : s.markDirty.fault = s.fault := rfl
@[simp] theorem State.markDirty_inputs : s.markDirty.inputs = s.inputs := rfl
@[simp] theorem State.markDirty_cycle : s.markDirty.cycle = s.cycle := rfl
@[simp] theorem State.markDirty_out : s.markDirty.out = s.out := rfl

/-! ### setWaitCounter -/

@[simp] theorem State.setWaitCounter_cfg (d : BitVec 8) : (s.setWaitCounter d).cfg = s.cfg := rfl
@[simp] theorem State.setWaitCounter_mem (d : BitVec 8) : (s.setWaitCounter d).mem = s.mem := rfl
@[simp] theorem State.setWaitCounter_v (d : BitVec 8) : (s.setWaitCounter d).v = s.v := rfl
@[simp] theorem State.setWaitCounter_index (d : BitVec 8) : (s.setWaitCounter d).index = s.index := rfl
@[simp] theorem State.setWaitCounter_pc (d : BitVec 8) : (s.setWaitCounter d).pc = s.pc := rfl
@[simp] theorem State.setWaitCounter_stack (d : BitVec 8) : (s.setWaitCounter d).stack = s.stack := rfl
@[simp] theorem State.setWaitCounter_sp (d : BitVec 8) : (s.setWaitCounter d).sp = s.sp := rfl
@[simp] theorem State.setWaitCounter_delayTimer (d : BitVec 8) : (s.setWaitCounter d).delayTimer = s.delayTimer := rfl
@[simp] theorem State.setWaitCounter_soundTimer (d : BitVec 8) : (s.setWaitCounter d).soundTimer = s.soundTimer := rfl
@[simp] theorem State.setWaitCounter_display (d : BitVec 8) : (s.setWaitCounter d).display = s.display := rfl
@[simp] theorem State.setWaitCounter_displayDirty (d : BitVec 8) : (s.setWaitCounter d).displayDirty = s.displayDirty := rfl
@[simp] theorem State.setWaitCounter_displayWaitCounter (d : BitVec 8) : (s.setWaitCounter d).displayWaitCounter = d := rfl
@[simp] theorem State.setWaitCounter_keyLastPressed (d : BitVec 8) : (s.setWaitCounter d).keyLastPressed = s.keyLastPressed := rfl
@[simp] theorem State.setWaitCounter_lastTimerUpdate (d : BitVec 8) : (s.setWaitCounter d).lastTimerUpdate = s.lastTimerUpdate := rfl
@[simp] theorem State.setWaitCounter_nextFrameDue (d : BitVec 8) : (s.setWaitCounter d).nextFrameDue = s.nextFrameDue := rfl
@[simp] theorem State.setWaitCounter_fault (d : BitVec 8) : (s.setWaitCounter d).fault = s.fault := rfl
@[simp] theorem State.setWaitCounter_inputs (d : BitVec 8) : (s.setWaitCounter d).inputs = s.inputs := rfl
@[simp] theorem State.setWaitCounter_cycle (d : BitVec 8) : (s.setWaitCounter d).cycle = s.cycle := rfl
@[simp] theorem State.setWaitCounter_out (d : BitVec 8) : (s.setWaitCounter d).out = s.out := rfl

/-! ### tonePhase -/

@[simp] theorem State.tonePhase_cfg : s.tonePhase.cfg = s.cfg := rfl
@[simp] theorem State.tonePhase_mem : s.tonePhase.mem = s.mem := rfl
@[simp] theorem State.tonePhase_v : s.tonePhase.v = s.v := rfl
@[simp] theorem State.tonePhase_index : s.tonePhase.index = s.index := rfl
@[simp] theorem State.tonePhase_pc : s.tonePhase.pc = s.pc := rfl
@[simp] theorem State.tonePhase_stack : s.tonePhase.stack = s.stack := rfl
@[simp] theorem State.tonePhase_sp : s.tonePhase.sp = s.sp := rfl
@[simp] theorem State.tonePhase_delayTimer : s.tonePhase.delayTimer = s.delayTimer := rfl
@[simp] theorem State.tonePhase_soundTimer : s.tonePhase.soundTimer = s.soundTimer := rfl
@[simp] theorem State.tonePhase_display : s.tonePhase.display = s.display := rfl
@[simp] theorem State.tonePhase_displayDirty : s.tonePhase.displayDirty = s.displayDirty := rfl
@[simp] theorem State.tonePhase_displayWaitCounter : s.tonePhase.displayWaitCounter = s.displayWaitCounter := rfl
@[simp] theorem State.tonePhase_keyLastPressed : s.tonePhase.keyLastPressed = s.keyLastPressed := rfl
@[simp] theorem State.tonePhase_lastTimerUpdate : s.tonePhase.lastTimerUpdate = s.lastTimerUpdate := rfl
@[simp] theorem State.tonePhase_nextFrameDue : s.tonePhase.nextFrameDue = s.nextFrameDue := rfl
@[simp] theorem State.tonePhase_fault : s.tonePhase.fault = s.fault := rfl
@[simp] theorem State.tonePhase_inputs : s.tonePhase.inputs = s.inputs := rfl
@[simp] theorem State.tonePhase_cycle : s.tonePhase.cycle = s.cycle := rfl
@[simp] theorem State.tonePhase_out : s.tonePhase.out = { s.out with tone := decide (0 < s.soundTimer.toNat) } := rfl

/-! ### inputPhase -/

@[simp] theorem State.inputPhase_cfg : s.inputPhase.cfg = s.cfg := rfl
@[simp] theorem State.inputPhase_mem : s.inputPhase.mem = s.mem := rfl
@[simp] theorem State.inputPhase_v : s.inputPhase.v = s.v := rfl
@[simp] theorem State.inputPhase_index : s.inputPhase.index = s.index := rfl
@[simp] theorem State.inputPhase_pc : s.inputPhase.pc = s.pc := rfl
@[simp] theorem State.inputPhase_stack : s.inputPhase.stack = s.stack := rfl
@[simp] theorem State.inputPhase_sp : s.inputPhase.sp = s.sp := rfl
@[simp] theorem State.inputPhase_delayTimer : s.inputPhase.delayTimer = s.delayTimer := rfl
@[simp] theorem State.inputPhase_soundTimer : s.inputPhase.soundTimer = s.soundTimer := rfl
@[simp] theorem State.inputPhase_display : s.inputPhase.display = s.display := rfl
@[simp] theorem State.inputPhase_displayDirty : s.inputPhase.displayDirty = s.displayDirty := rfl
@[simp] theorem State.inputPhase_displayWaitCounter : s.inputPhase.displayWaitCounter = s.displayWaitCounter := rfl
@[simp] theorem State.inputPhase_keyLastPressed :
    s.inputPhase.keyLastPressed = Vector.ofFn fun k : Fin 16 => if s.inputs.keysDown.getLsbD k.val then some s.inputs.now else s.keyLastPressed[k] := rfl
@[simp] theorem State.inputPhase_lastTimerUpdate : s.inputPhase.lastTimerUpdate = s.lastTimerUpdate := rfl
@[simp] theorem State.inputPhase_nextFrameDue : s.inputPhase.nextFrameDue = s.nextFrameDue := rfl
@[simp] theorem State.inputPhase_fault : s.inputPhase.fault = s.fault := rfl
@[simp] theorem State.inputPhase_inputs : s.inputPhase.inputs = s.inputs := rfl
@[simp] theorem State.inputPhase_cycle : s.inputPhase.cycle = s.cycle := rfl
@[simp] theorem State.inputPhase_out : s.inputPhase.out = s.out := rfl

/-! ### sampleInputs -/

@[simp] theorem State.sampleInputs_cfg : s.sampleInputs.cfg = s.cfg := rfl
@[simp] theorem State.sampleInputs_mem : s.sampleInputs.mem = s.mem := rfl
@[simp] theorem State.sampleInputs_v : s.sampleInputs.v = s.v := rfl
@[simp] theorem State.sampleInputs_index : s.sampleInputs.index = s.index := rfl
@[simp] theorem State.sampleInputs_pc : s.sampleInputs.pc = s.pc := rfl
@[simp] theorem State.sampleInputs_stack : s.sampleInputs.stack = s.stack := rfl
@[simp] theorem State.sampleInputs_sp : s.sampleInputs.sp = s.sp := rfl
@[simp] theorem State.sampleInputs_delayTimer : s.sampleInputs.delayTimer = s.delayTimer := rfl
@[simp] theorem State.sampleInputs_soundTimer : s.sampleInputs.soundTimer = s.soundTimer := rfl
@[simp] theorem State.sampleInputs_display : s.sampleInputs.display = s.display := rfl
@[simp] theorem State.sampleInputs_displayDirty : s.sampleInputs.displayDirty = s.displayDirty := rfl
@[simp] theorem State.sampleInputs_displayWaitCounter : s.sampleInputs.displayWaitCounter = s.displayWaitCounter := rfl
@[simp] theorem State.sampleInputs_keyLastPressed : s.sampleInputs.keyLastPressed = s.keyLastPressed := rfl
@[simp] theorem State.sampleInputs_lastTimerUpdate : s.sampleInputs.lastTimerUpdate = s.lastTimerUpdate := rfl
@[simp] theorem State.sampleInputs_nextFrameDue : s.sampleInputs.nextFrameDue = s.nextFrameDue := rfl
@[simp] theorem State.sampleInputs_fault : s.sampleInputs.fault = s.fault := rfl
@[simp] theorem State.sampleInputs_inputs :
    s.sampleInputs.inputs = ⟨s.inputs.now + Config.elapsed s.cycle, Config.keysDown s.cycle, Config.rand s.cycle⟩ := rfl
@[simp] theorem State.sampleInputs_cycle : s.sampleInputs.cycle = s.cycle + 1 := rfl
@[simp] theorem State.sampleInputs_out : s.sampleInputs.out = s.out := rfl

/-! ### clearStrobes -/

@[simp] theorem State.clearStrobes_cfg : s.clearStrobes.cfg = s.cfg := rfl
@[simp] theorem State.clearStrobes_mem : s.clearStrobes.mem = s.mem := rfl
@[simp] theorem State.clearStrobes_v : s.clearStrobes.v = s.v := rfl
@[simp] theorem State.clearStrobes_index : s.clearStrobes.index = s.index := rfl
@[simp] theorem State.clearStrobes_pc : s.clearStrobes.pc = s.pc := rfl
@[simp] theorem State.clearStrobes_stack : s.clearStrobes.stack = s.stack := rfl
@[simp] theorem State.clearStrobes_sp : s.clearStrobes.sp = s.sp := rfl
@[simp] theorem State.clearStrobes_delayTimer : s.clearStrobes.delayTimer = s.delayTimer := rfl
@[simp] theorem State.clearStrobes_soundTimer : s.clearStrobes.soundTimer = s.soundTimer := rfl
@[simp] theorem State.clearStrobes_display : s.clearStrobes.display = s.display := rfl
@[simp] theorem State.clearStrobes_displayDirty : s.clearStrobes.displayDirty = s.displayDirty := rfl
@[simp] theorem State.clearStrobes_displayWaitCounter : s.clearStrobes.displayWaitCounter = s.displayWaitCounter := rfl
@[simp] theorem State.clearStrobes_keyLastPressed : s.clearStrobes.keyLastPressed = s.keyLastPressed := rfl
@[simp] theorem State.clearStrobes_lastTimerUpdate : s.clearStrobes.lastTimerUpdate = s.lastTimerUpdate := rfl
@[simp] theorem State.clearStrobes_nextFrameDue : s.clearStrobes.nextFrameDue = s.nextFrameDue := rfl
@[simp] theorem State.clearStrobes_fault : s.clearStrobes.fault = s.fault := rfl
@[simp] theorem State.clearStrobes_inputs : s.clearStrobes.inputs = s.inputs := rfl
@[simp] theorem State.clearStrobes_cycle : s.clearStrobes.cycle = s.cycle := rfl
@[simp] theorem State.clearStrobes_out : s.clearStrobes.out = { Outputs.quiet with tone := s.out.tone } := rfl

/-! ### beginExecute -/

@[simp] theorem State.beginExecute_cfg : s.beginExecute.cfg = s.cfg := rfl
@[simp] theorem State.beginExecute_mem : s.beginExecute.mem = s.mem := rfl
@[simp] theorem State.beginExecute_v : s.beginExecute.v = s.v := rfl
@[simp] theorem State.beginExecute_index : s.beginExecute.index = s.index := rfl
@[simp] theorem State.beginExecute_pc : s.beginExecute.pc = s.pc + 2 := rfl
@[simp] theorem State.beginExecute_stack : s.beginExecute.stack = s.stack := rfl
@[simp] theorem State.beginExecute_sp : s.beginExecute.sp = s.sp := rfl
@[simp] theorem State.beginExecute_delayTimer : s.beginExecute.delayTimer = s.delayTimer := rfl
@[simp] theorem State.beginExecute_soundTimer : s.beginExecute.soundTimer = s.soundTimer := rfl
@[simp] theorem State.beginExecute_display : s.beginExecute.display = s.display := rfl
@[simp] theorem State.beginExecute_displayDirty : s.beginExecute.displayDirty = s.displayDirty := rfl
@[simp] theorem State.beginExecute_displayWaitCounter : s.beginExecute.displayWaitCounter = s.displayWaitCounter := rfl
@[simp] theorem State.beginExecute_keyLastPressed : s.beginExecute.keyLastPressed = s.keyLastPressed := rfl
@[simp] theorem State.beginExecute_lastTimerUpdate : s.beginExecute.lastTimerUpdate = s.lastTimerUpdate := rfl
@[simp] theorem State.beginExecute_nextFrameDue : s.beginExecute.nextFrameDue = s.nextFrameDue := rfl
@[simp] theorem State.beginExecute_fault : s.beginExecute.fault = s.fault := rfl
@[simp] theorem State.beginExecute_inputs : s.beginExecute.inputs = s.inputs := rfl
@[simp] theorem State.beginExecute_cycle : s.beginExecute.cycle = s.cycle := rfl
@[simp] theorem State.beginExecute_out : s.beginExecute.out = { Outputs.quiet with tone := s.out.tone } := rfl

/-! ### Operations that are another name of an update -/

@[simp] theorem State.advancePc_eq : s.advancePc = s.setPc (s.pc + 2) := rfl
@[simp] theorem State.skip_eq : s.skip = s.setPc (s.pc + 2) := rfl
@[simp] theorem State.retry_eq : s.retry = s.setPc (s.pc - 2) := rfl
theorem State.idleCycle_eq : s.idleCycle = s.clearStrobes := rfl
theorem State.abandonCycle_eq (a : FaultAddr) : s.abandonCycle a = s.clearStrobes.raiseAddressRangeFault a := rfl
theorem State.beginExecute_eq : s.beginExecute = s.clearStrobes.setPc (s.pc + 2) := rfl
@[simp] theorem State.dataBase_eq : s.dataBase = s.index.toNat := rfl

end Sys2Proof.Machine
end

