-- ==== Sys2Proof/Laws/Ops.lean ====
section
/-! SUPPORT. One lemma per shared operation, which later proofs cite instead of unfolding it. -/

namespace Sys2Proof.Machine

variable (s : State)

/-! ### Reading a register after an update -/

/-- A register read after a register write. -/
theorem State.reg_setReg (x y : Reg) (d : Byte) : (s.setReg x d).reg y = if y = x then d else s.reg y := by
  by_cases h : y = x
  · subst h
    simp [State.reg]
  · have hne : x.toNat ≠ y.toNat := fun he => h (BitVec.eq_of_toNat_eq he.symm)
    simp [State.reg, h, Vector.getElem_set_ne _ _ hne]

@[simp] theorem State.reg_setReg_same (x : Reg) (d : Byte) : (s.setReg x d).reg x = d := by simp [State.reg_setReg]

theorem State.reg_setReg_ne {x y : Reg} (h : y ≠ x) (d : Byte) : (s.setReg x d).reg y = s.reg y := by
  simp [State.reg_setReg, h]

@[simp] theorem State.reg_setIndex (d : Word) (y : Reg) : (s.setIndex d).reg y = s.reg y := rfl
@[simp] theorem State.reg_setPc (d : Word) (y : Reg) : (s.setPc d).reg y = s.reg y := rfl
@[simp] theorem State.reg_writeBytes (a : Nat) (ds : List Byte) (y : Reg) : (s.writeBytes a ds).reg y = s.reg y := rfl
@[simp] theorem State.reg_raiseAddressRangeFault (a : FaultAddr) (y : Reg) : (s.raiseAddressRangeFault a).reg y = s.reg y := rfl
@[simp] theorem State.reg_setDisplay (d : Display) (y : Reg) : (s.setDisplay d).reg y = s.reg y := rfl
@[simp] theorem State.reg_markDirty (y : Reg) : s.markDirty.reg y = s.reg y := rfl
@[simp] theorem State.reg_setWaitCounter (d : BitVec 8) (y : Reg) : (s.setWaitCounter d).reg y = s.reg y := rfl
@[simp] theorem State.reg_clearStrobes (y : Reg) : s.clearStrobes.reg y = s.reg y := rfl

/-! ### Reading memory after an update -/

@[simp] theorem State.byteAt_setReg (x : Reg) (d : Byte) (a : Nat) : (s.setReg x d).byteAt a = s.byteAt a := rfl
@[simp] theorem State.byteAt_setIndex (d : Word) (a : Nat) : (s.setIndex d).byteAt a = s.byteAt a := rfl
@[simp] theorem State.byteAt_setPc (d : Word) (a : Nat) : (s.setPc d).byteAt a = s.byteAt a := rfl
@[simp] theorem State.byteAt_setDisplay (d : Display) (a : Nat) : (s.setDisplay d).byteAt a = s.byteAt a := rfl
@[simp] theorem State.byteAt_markDirty (a : Nat) : s.markDirty.byteAt a = s.byteAt a := rfl
@[simp] theorem State.byteAt_setWaitCounter (d : BitVec 8) (a : Nat) : (s.setWaitCounter d).byteAt a = s.byteAt a := rfl
@[simp] theorem State.byteAt_clearStrobes (a : Nat) : s.clearStrobes.byteAt a = s.byteAt a := rfl

/-- A byte read after stores to consecutive addresses. -/
theorem State.byteAt_writeBytes (hm : Memory.wf s.cfg.font s.mem = true) (ds : List Byte) (a b : Nat)
    (h : a + ds.length ≤ memSize) :
    (s.writeBytes a ds).byteAt b = if a ≤ b then (ds[b - a]?).getD (s.byteAt b) else s.byteAt b :=
  Memory.read_writeList hm ds a b h

/-! ### The range check -/

/-- No address of the range is out of bounds. -/
theorem rangeFault_eq_none_iff (base len : Nat) : rangeFault base len = none ↔ len = 0 ∨ base + len ≤ 4096 := by
  unfold rangeFault memSize
  by_cases h : 0 < len ∧ 4096 < base + len
  · rw [if_pos h]
    simp
    omega
  · rw [if_neg h]
    simp
    omega

/-- The recorded address is the lowest out-of-range address of the range. -/
theorem rangeFault_eq_some_iff (base len : Nat) (a : FaultAddr) :
    rangeFault base len = some a ↔ 0 < len ∧ 4096 < base + len ∧ a = BitVec.ofNat 17 (max base 4096) := by
  unfold rangeFault memSize
  by_cases h : 0 < len ∧ 4096 < base + len
  · simp [h, eq_comm]
  · rw [if_neg h]
    simp
    omega

/-- Everything the range check can do: the body, or the fault and nothing of the body. -/
theorem State.checked_cases (base len : Nat) (body : State) :
    (s.checked base len body = body ∧ (len = 0 ∨ base + len ≤ 4096)) ∨
      (s.checked base len body = s.raiseAddressRangeFault (BitVec.ofNat 17 (max base 4096)) ∧
        0 < len ∧ 4096 < base + len) := by
  unfold State.checked
  cases h : rangeFault base len with
  | none => exact .inl ⟨rfl, (rangeFault_eq_none_iff base len).mp h⟩
  | some a =>
    obtain ⟨h1, h2, rfl⟩ := (rangeFault_eq_some_iff base len a).mp h
    exact .inr ⟨rfl, h1, h2⟩

theorem State.checked_of_fits {base len : Nat} (h : len = 0 ∨ base + len ≤ 4096) (body : State) :
    s.checked base len body = body := by
  rcases s.checked_cases base len body with ⟨h1, _⟩ | ⟨_, h1, h2⟩
  · exact h1
  · omega

theorem State.checked_of_exceeds {base len : Nat} (h : 0 < len) (h' : 4096 < base + len) (body : State) :
    s.checked base len body = s.raiseAddressRangeFault (BitVec.ofNat 17 (max base 4096)) := by
  rcases s.checked_cases base len body with ⟨_, h1⟩ | ⟨h1, _⟩
  · omega
  · exact h1

/-! ### Results and flags -/

/-- Every register after a result and a flag: `VF` holds the flag, whatever X is (42_alu R140). -/
theorem State.reg_writeResultFlag (x y : Reg) (r f : Byte) :
    (s.writeResultFlag x r f).reg y = if y = VF then f else if y = x then r else s.reg y := by
  simp only [State.writeResultFlag, State.reg_setReg]

/-- A result with a flag changes registers only. -/
theorem State.writeResultFlag_frame (x : Reg) (r f : Byte) :
    s.writeResultFlag x r f = { s with v := (s.writeResultFlag x r f).v } := rfl

/-- A logic result changes registers only. -/
theorem State.writeLogic_frame (x : Reg) (r : Byte) : s.writeLogic x r = { s with v := (s.writeLogic x r).v } := by
  unfold State.writeLogic
  split_ifs <;> rfl

/-- Every register after a logic result (42_alu R133). -/
theorem State.reg_writeLogic (x y : Reg) (r : Byte) :
    (s.writeLogic x r).reg y =
      if s.cfg.quirks.vfReset = true ∧ y = VF then 0x00 else if y = x then r else s.reg y := by
  unfold State.writeLogic
  split_ifs with h <;> simp_all [State.reg_writeResultFlag, State.reg_setReg]

/-! ### The first registers, stored and loaded -/

@[simp] theorem State.length_firstRegs (k : Nat) : (s.firstRegs k).length = k := by
  induction k with
  | zero => rfl
  | succ k ih => simp [State.firstRegs, ih]

/-- Byte i of the stored registers is `V[i]`. -/
theorem State.getElem?_firstRegs (k i : Nat) :
    (s.firstRegs k)[i]? = if i < k then some (s.reg (BitVec.ofNat 4 i)) else none := by
  induction k with
  | zero => simp [State.firstRegs]
  | succ k ih =>
    rw [State.firstRegs, List.getElem?_append, State.length_firstRegs, ih]
    rcases Nat.lt_trichotomy i k with h | h | h
    · simp [h, Nat.lt_succ_of_lt h]
    · subst h
      simp
    · rw [if_neg (by omega), if_neg (by omega)]
      exact List.getElem?_eq_none (by simp; omega)

/-- Loading changes registers only. -/
theorem State.loadFirstRegs_frame (base k : Nat) :
    s.loadFirstRegs base k = { s with v := (s.loadFirstRegs base k).v } := by
  induction k with
  | zero => rfl
  | succ k ih =>
    simp only [State.loadFirstRegs]
    rw [ih]
    rfl

/-- Every register after loading `V[0]` to `V[k-1]`. -/
theorem State.reg_loadFirstRegs (base : Nat) {k : Nat} (hk : k ≤ 16) (r : Reg) :
    (s.loadFirstRegs base k).reg r = if r.toNat < k then s.byteAt (base + r.toNat) else s.reg r := by
  induction k with
  | zero => simp [State.loadFirstRegs]
  | succ k ih =>
    have hmod : (BitVec.ofNat 4 k).toNat = k := by
      simp only [BitVec.toNat_ofNat]
      omega
    rw [State.loadFirstRegs, State.reg_setReg, ih (by omega)]
    by_cases h : r = BitVec.ofNat 4 k
    · have hr : r.toNat = k := by rw [h, hmod]
      simp [h, hmod]
    · have hr : r.toNat ≠ k := fun he => h (BitVec.eq_of_toNat_eq (by rw [hmod, he]))
      rw [if_neg h]
      by_cases hlt : r.toNat < k
      · rw [if_pos hlt, if_pos (by omega)]
      · rw [if_neg hlt, if_neg (by omega)]

/-- The step of `I` changes `I` only. -/
theorem State.bumpIndex_frame (x : Reg) : s.bumpIndex x = { s with index := (s.bumpIndex x).index } := by
  unfold State.bumpIndex
  split_ifs <;> rfl

/-- `I` after the step (43_index_memory R155). -/
theorem State.index_bumpIndex (x : Reg) :
    (s.bumpIndex x).index = if s.cfg.quirks.memoryIncrement then s.index + memIncOf s.cfg x else s.index := by
  unfold State.bumpIndex
  split_ifs <;> rfl

/-! ### Skips -/

/-- A conditional skip changes `PC` only. -/
theorem State.skipIf_eq (c : Bool) : s.skipIf c = { s with pc := if c then s.pc + 2 else s.pc } := by
  cases c <;> rfl

/-! ### The return stack (10_state R27, R28) -/

/-- A push on a stack with room. -/
theorem State.push_room (h : s.sp.val < 16) (d : Word) :
    s.push d = { s with stack := s.stack.set s.sp.val d h, sp := ⟨s.sp.val + 1, by omega⟩ } := by
  simp [State.push, h]

/-- A push on a full stack is rejected and reported. -/
theorem State.push_full (h : s.sp.val = 16) (d : Word) : s.push d = s.reportStackOverflow := by
  simp [State.push, h]

/-- Everything a push can change. -/
theorem State.push_frame (d : Word) :
    s.push d = { s with
      stack := (s.push d).stack, sp := (s.push d).sp,
      out := { s.out with stackOverflow := (s.push d).out.stackOverflow } } := by
  by_cases h : s.sp.val < 16
  · rw [State.push_room s h]
  · rw [State.push_full s (by omega)]
    rfl

/-- A pop of a stack that holds an entry. -/
theorem State.dropTop_some (h : 0 < s.sp.val) : s.dropTop = { s with sp := ⟨s.sp.val - 1, by omega⟩ } := by
  simp [State.dropTop, h]

/-- A pop of an empty stack is rejected and reported. -/
theorem State.dropTop_empty (h : s.sp.val = 0) : s.dropTop = s.reportStackUnderflow := by
  simp [State.dropTop, h]

/-- Everything a pop can change. -/
theorem State.dropTop_frame :
    s.dropTop = { s with
      sp := s.dropTop.sp, out := { s.out with stackUnderflow := s.dropTop.out.stackUnderflow } } := by
  by_cases h : 0 < s.sp.val
  · rw [State.dropTop_some s h]
  · rw [State.dropTop_empty s (by omega)]
    rfl

/-- The sentinel of a pop on an empty stack. -/
theorem State.popped_empty (h : s.sp.val = 0) : s.popped = 0 := by
  simp [State.popped, h]

/-- A pop after a push with room gives the value pushed. -/
theorem State.popped_push (h : s.sp.val < 16) (d : Word) : (s.push d).popped = d := by
  simp [State.push, State.popped, h]

end Sys2Proof.Machine
end

