-- ==== Sys2Proof/Laws/Screen.lean ====
section
/-! SUPPORT. The bitmap: a cell after a toggle, after a clear, and what each level of a draw leaves alone. -/

namespace Sys2Proof.Machine

variable (s : State)

/-- A cell after toggling one cell. -/
theorem Display.cell_flip (d : Display) (y row : Fin 32) (x col : Fin 64) :
    Display.cell (Display.flip d y x) row col = (Display.cell d row col ^^ decide (row = y ∧ col = x)) := by
  unfold Display.cell Display.flip
  by_cases hr : row = y
  · subst hr
    simp [Fin.ext_iff, eq_comm]
  · have hne : y.val ≠ row.val := fun h => hr (Fin.ext h.symm)
    simp [hr, Vector.getElem_set_ne _ _ hne]

/-- Every cell of a cleared bitmap is off (44_display R171). -/
theorem Display.cell_clear (row : Fin 32) (col : Fin 64) :
    Display.cell (Vector.replicate 32 0) row col = false := by
  simp [Display.cell]

/-- Two bitmaps with the same cells are equal. -/
theorem Display.eq_of_cell_eq {d e : Display} (h : ∀ row col, Display.cell d row col = Display.cell e row col) : d = e :=
  Vector.ext fun i hi => BitVec.eq_of_getLsbD_eq fun j hj => h ⟨i, hi⟩ ⟨j, hj⟩

/-- A clipped coordinate is its own, a wrapped one is taken modulo 32 (44_display R173). -/
theorem targetRow_eq_some_iff (clipping : Bool) (row : Nat) (y : Fin 32) :
    targetRow clipping row = some y ↔ if clipping then row = y.val else row % 32 = y.val := by
  have := y.isLt
  cases clipping
  · simp [targetRow, Fin.ext_iff]
  · by_cases h : 31 < row
    · simp [targetRow, h]
      omega
    · simp [targetRow, h, Fin.ext_iff]
      omega

/-- A clipped coordinate is its own, a wrapped one is taken modulo 64 (44_display R173). -/
theorem targetCol_eq_some_iff (clipping : Bool) (col : Nat) (x : Fin 64) :
    targetCol clipping col = some x ↔ if clipping then col = x.val else col % 64 = x.val := by
  have := x.isLt
  cases clipping
  · simp [targetCol, Fin.ext_iff]
  · by_cases h : 63 < col
    · simp [targetCol, h]
      omega
    · simp [targetCol, h, Fin.ext_iff]
      omega

/-- The counter's step changes the counter only. -/
theorem State.countDraw_frame :
    s.countDraw = { s with
      displayWaitCounter := if s.cfg.quirks.displayWait then s.displayWaitCounter + 1 else s.displayWaitCounter } := by
  unfold State.countDraw
  split_ifs <;> rfl

/-- A draw writes `VF`, the bitmap, the dirty flag and the counter, and nothing else (44_display R172, R175). -/
theorem State.drawSprite_frame (x y : Reg) (n : Imm4) :
    s.drawSprite x y n = { s with
      v := s.v.set VF.toNat
        (collisionFlag (s.drawRows (s.spriteX x) (s.spriteY y) s.dataBase n.toNat ⟨s.display, false⟩).hit) (by decide)
      display := (s.drawRows (s.spriteX x) (s.spriteY y) s.dataBase n.toNat ⟨s.display, false⟩).display
      displayDirty := true
      displayWaitCounter := if s.cfg.quirks.displayWait then s.displayWaitCounter + 1 else s.displayWaitCounter } := by
  simp only [State.drawSprite, State.countDraw_frame]
  rfl

/-- The coordinates of a draw, as numbers (44_display R172). -/
theorem State.spriteX_eq (x : Reg) : s.spriteX x = (s.reg x).toNat % 64 := by
  have h : (s.reg x).toNat &&& 63 = (s.reg x).toNat % 64 := Nat.and_two_pow_sub_one_eq_mod _ 6
  simpa [State.spriteX] using h

theorem State.spriteY_eq (y : Reg) : s.spriteY y = (s.reg y).toNat % 32 := by
  have h : (s.reg y).toNat &&& 31 = (s.reg y).toNat % 32 := Nat.and_two_pow_sub_one_eq_mod _ 5
  simpa [State.spriteY] using h

/-- The draw is deferred exactly with `display_wait` on and the counter not 0 (44_display R172). -/
theorem State.drawDeferred_iff :
    s.drawDeferred = true ↔ s.cfg.quirks.displayWait = true ∧ s.displayWaitCounter ≠ 0 := by
  simp [State.drawDeferred, and_comm]

end Sys2Proof.Machine
end

