-- ==== Sys2Proof/Laws/Cycle.lean ====
section
/-! SUPPORT. What one core cycle can do, said once: the ways a step goes, what the two cycles that execute nothing leave
alone, and each field after the closing phases. -/

namespace Sys2Proof.Machine

variable (s t : State)

/-! ### The end of a run -/

theorem State.halted_iff : s.halted = true ↔ 0x200 + s.cfg.romLen.val ≤ s.pc.toNat := decide_eq_true_iff

theorem State.stopped_iff : s.stopped = true ↔ s.fault ≠ none ∨ s.halted = true := by
  simp [State.stopped, Option.isSome_iff_ne_none]

theorem State.stopped_eq_false_iff : s.stopped = false ↔ s.fault = none ∧ s.pc.toNat < 0x200 + s.cfg.romLen.val := by
  rw [← Bool.not_eq_true, State.stopped_iff, State.halted_iff]
  simp

/-! ### Frames from equal fields -/

/-- A field update of registers only. -/
theorem onlyChanges_regs (v : Vector Byte 16) : OnlyChanges [.regs] s { s with v := v } := by
  intro p hp
  cases p <;> simp [Part.same] at hp ⊢
  intros
  rfl

/-- Frames compose. -/
theorem OnlyChanges.trans {ps qs : List Part} {s t u : State} (h : OnlyChanges ps s t) (h' : OnlyChanges qs t u) :
    OnlyChanges (ps ++ qs) s u := by
  intro p hp
  have h1 := h p (fun hm => hp (List.mem_append_left _ hm))
  have h2 := h' p (fun hm => hp (List.mem_append_right _ hm))
  cases p <;> simp only [Part.same] at h1 h2 ⊢ <;> grind

/-! ### The cycles that execute nothing -/

theorem State.idleCycle_frame : OnlyChanges strobes s s.idleCycle ∧ s.idleCycle.StrobesLow := by
  refine ⟨?_, rfl, rfl, rfl, rfl⟩
  intro p hp
  cases p <;> simp [Part.same, strobes, State.idleCycle, State.clearStrobes] at hp ⊢ <;> (intros; rfl)

theorem State.abandonCycle_frame (a : FaultAddr) :
    OnlyChanges (.fault :: strobes) s (s.abandonCycle a) ∧ (s.abandonCycle a).StrobesLow ∧
      (s.abandonCycle a).fault = some a := by
  refine ⟨?_, ⟨rfl, rfl, rfl, rfl⟩, rfl⟩
  intro p hp
  cases p <;> simp [Part.same, strobes, State.abandonCycle, State.clearStrobes] at hp ⊢ <;> (intros; rfl)

theorem State.beginExecute_frame :
    OnlyChanges (.pc :: strobes) s s.beginExecute ∧ s.beginExecute.pc = s.pc + 2 ∧ s.beginExecute.StrobesLow := by
  refine ⟨?_, rfl, ⟨rfl, rfl, rfl, rfl⟩⟩
  intro p hp
  cases p <;> simp [Part.same, strobes, State.beginExecute, State.clearStrobes] at hp ⊢ <;> (intros; rfl)

/-! ### The ways a step goes -/

/-- A meaning always answers a next state. -/
theorem exec_next (i : Instr) : ∃ u, exec i s = .next u := by cases i <;> exact ⟨_, rfl⟩

theorem executeWord_next (w : Word) : ∃ u, executeWord w s = .next u := by
  unfold executeWord
  split
  · exact exec_next s _
  · exact ⟨_, rfl⟩

theorem executeWord_decoded {w : Word} {i : Instr} (h : decodeWord w = some i) : executeWord w s = exec i s := by
  simp [executeWord, h]

theorem executeWord_unknown {w : Word} (h : decodeWord w = none) : executeWord w s = .next (s.reportUnknown w) := by
  simp [executeWord, h, execUnknown]

theorem step_of_stopped (h : s.stopped = true) : step s = .next s.idleCycle := by
  simp [step, coreCycle, h]

theorem step_of_fetch_error {a : FaultAddr} (h : s.stopped = false) (hf : s.fetch = .error a) :
    step s = .next (s.abandonCycle a) := by
  simp [step, coreCycle, h, hf]

theorem step_of_executed {w : Word} {t : State} (h : s.stopped = false) (hf : s.fetch = .ok w)
    (he : executeWord w s.beginExecute = .next t) : step s = .next (s.finishCycle t) := by
  simp [step, coreCycle, State.runWord, h, hf, he]

theorem State.finishCycle_of_fault {a : FaultAddr} (h : t.fault = some a) : s.finishCycle t = s.abandonCycle a := by
  simp [State.finishCycle, h]

theorem State.finishCycle_of_no_fault (h : t.fault = none) : s.finishCycle t = t.endCycle := by
  simp [State.finishCycle, h]

/-- Everything a step can do: idle, abandon at the fetch, abandon at the instruction, or execute and close. -/
theorem step_cases {s u : State} (h : step s = .next u) :
    (s.stopped = true ∧ u = s.idleCycle) ∨
    (s.stopped = false ∧ ∃ a, s.fetch = .error a ∧ u = s.abandonCycle a) ∨
    (s.stopped = false ∧ ∃ w t, s.fetch = .ok w ∧ executeWord w s.beginExecute = .next t ∧
      ((∃ a, t.fault = some a ∧ u = s.abandonCycle a) ∨ (t.fault = none ∧ u = t.endCycle))) := by
  cases hs : s.stopped with
  | true =>
    rw [step_of_stopped s hs] at h
    cases h
    exact .inl ⟨rfl, rfl⟩
  | false =>
    cases hf : s.fetch with
    | error a =>
      rw [step_of_fetch_error s hs hf] at h
      cases h
      exact .inr (.inl ⟨rfl, a, rfl, rfl⟩)
    | ok w =>
      obtain ⟨t, he⟩ := executeWord_next s.beginExecute w
      rw [step_of_executed s hs hf he] at h
      cases h
      refine .inr (.inr ⟨rfl, w, t, rfl, he, ?_⟩)
      cases ht : t.fault with
      | none => exact .inr ⟨rfl, State.finishCycle_of_no_fault s t ht⟩
      | some a => exact .inl ⟨a, rfl, State.finishCycle_of_fault s t ht⟩

/-- An executed cycle, from its parts. -/
theorem cycleExecutes_of {s t : State} {w : Word} (h : s.stopped = false) (hf : s.fetch = .ok w)
    (he : executeWord w s.beginExecute = .next t) (ht : t.fault = none) : CycleExecutes s t t.endCycle :=
  ⟨h, ht, by rw [step_of_executed s h hf he, State.finishCycle_of_no_fault s t ht], w, hf, he⟩

/-- An executed cycle ends with the closing phases. -/
theorem CycleExecutes.eq_endCycle {s t u : State} (h : CycleExecutes s t u) : u = t.endCycle := by
  obtain ⟨hs, ht, hst, w, hf, he⟩ := h
  rw [step_of_executed s hs hf he, State.finishCycle_of_no_fault s t ht] at hst
  cases hst
  rfl

/-- A fetch in range is the two bytes at `PC`. -/
theorem State.fetch_of_fits (h : s.pc.toNat + 2 ≤ 4096) :
    s.fetch = .ok (wordOfBytes (s.byteAt s.pc.toNat) (s.byteAt (s.pc.toNat + 1))) := by
  simp [State.fetch, (rangeFault_eq_none_iff s.pc.toNat 2).mpr (.inr h)]

/-- A fetch out of range gives the lowest address out of range. -/
theorem State.fetch_of_exceeds (h : 4096 < s.pc.toNat + 2) :
    s.fetch = .error (BitVec.ofNat 17 (max s.pc.toNat 4096)) := by
  simp [State.fetch, (rangeFault_eq_some_iff s.pc.toNat 2 _).mpr ⟨by omega, h, rfl⟩]

/-! ### The closing phases, field by field -/

theorem State.timerDue_iff : s.timerDue = true ↔ 1000000000 < (s.inputs.now - s.lastTimerUpdate) * 60 :=
  decide_eq_true_iff

theorem State.frameDue_iff : s.frameDue = true ↔ s.nextFrameDue ≤ s.inputs.now := decide_eq_true_iff

theorem State.endCycle_mem : s.endCycle.mem = s.mem := by
  simp only [State.endCycle, State.sampleInputs, State.inputPhase, State.framePhase, State.tonePhase, State.timerPhase]
  split_ifs <;> rfl

theorem State.endCycle_cfg : s.endCycle.cfg = s.cfg := by
  simp only [State.endCycle, State.sampleInputs, State.inputPhase, State.framePhase, State.tonePhase, State.timerPhase]
  split_ifs <;> rfl

theorem State.endCycle_v : s.endCycle.v = s.v := by
  simp only [State.endCycle, State.sampleInputs, State.inputPhase, State.framePhase, State.tonePhase, State.timerPhase]
  split_ifs <;> rfl

theorem State.endCycle_index : s.endCycle.index = s.index := by
  simp only [State.endCycle, State.sampleInputs, State.inputPhase, State.framePhase, State.tonePhase, State.timerPhase]
  split_ifs <;> rfl

theorem State.endCycle_pc : s.endCycle.pc = s.pc := by
  simp only [State.endCycle, State.sampleInputs, State.inputPhase, State.framePhase, State.tonePhase, State.timerPhase]
  split_ifs <;> rfl

theorem State.endCycle_stack : s.endCycle.stack = s.stack ∧ s.endCycle.sp = s.sp := by
  simp only [State.endCycle, State.sampleInputs, State.inputPhase, State.framePhase, State.tonePhase, State.timerPhase]
  split_ifs <;> exact ⟨rfl, rfl⟩

theorem State.endCycle_display : s.endCycle.display = s.display := by
  simp only [State.endCycle, State.sampleInputs, State.inputPhase, State.framePhase, State.tonePhase, State.timerPhase]
  split_ifs <;> rfl

theorem State.endCycle_fault : s.endCycle.fault = s.fault := by
  simp only [State.endCycle, State.sampleInputs, State.inputPhase, State.framePhase, State.tonePhase, State.timerPhase]
  split_ifs <;> rfl

theorem State.endCycle_timers :
    s.endCycle.delayTimer = (if s.timerDue then countDown s.delayTimer else s.delayTimer) ∧
    s.endCycle.soundTimer = (if s.timerDue then countDown s.soundTimer else s.soundTimer) ∧
    s.endCycle.lastTimerUpdate = (if s.timerDue then s.inputs.now else s.lastTimerUpdate) := by
  simp only [State.endCycle, State.sampleInputs, State.inputPhase, State.framePhase, State.tonePhase, State.timerPhase]
  split_ifs <;> exact ⟨rfl, rfl, rfl⟩

theorem State.endCycle_frame :
    s.endCycle.displayDirty = (if s.frameDue then false else s.displayDirty) ∧
    s.endCycle.displayWaitCounter = (if s.frameDue then 0 else s.displayWaitCounter) ∧
    s.endCycle.nextFrameDue = (if s.frameDue then s.inputs.now + framePeriod else s.nextFrameDue) ∧
    s.endCycle.out.render = (if s.frameDue then some s.displayDirty else none) := by
  have hd : s.timerPhase.tonePhase.frameDue = s.frameDue := by
    simp only [State.frameDue, State.tonePhase, State.timerPhase]
    split_ifs <;> rfl
  simp only [State.endCycle, State.sampleInputs, State.inputPhase, State.framePhase, hd]
  cases s.frameDue <;> simp only [State.tonePhase, State.timerPhase] <;> split_ifs <;> simp_all

theorem State.endCycle_tone : s.endCycle.out.tone = decide (0 < s.endCycle.soundTimer.toNat) := by
  simp only [State.endCycle, State.sampleInputs, State.inputPhase, State.framePhase, State.tonePhase, State.timerPhase]
  split_ifs <;> rfl

theorem State.endCycle_reports :
    s.endCycle.out.unknown = s.out.unknown ∧ s.endCycle.out.stackOverflow = s.out.stackOverflow ∧
    s.endCycle.out.stackUnderflow = s.out.stackUnderflow := by
  simp only [State.endCycle, State.sampleInputs, State.inputPhase, State.framePhase, State.tonePhase, State.timerPhase]
  split_ifs <;> exact ⟨rfl, rfl, rfl⟩

theorem State.endCycle_keys (k : Fin 16) :
    s.endCycle.keyLastPressed[k] =
      if s.inputs.keysDown.getLsbD k.val then some s.inputs.now else s.keyLastPressed[k] := by
  simp only [State.endCycle, State.sampleInputs, State.inputPhase, State.framePhase, State.tonePhase, State.timerPhase]
  split_ifs <;> simp_all

theorem State.endCycle_now : s.endCycle.inputs.now = s.inputs.now + Config.elapsed s.cycle := by
  simp only [State.endCycle, State.sampleInputs, State.inputPhase, State.framePhase, State.tonePhase, State.timerPhase]
  split_ifs <;> rfl

/-! ### The current key (60_exceptions R230) -/

/-- The newest time is recorded, and no recorded time is newer. -/
theorem newestPress_eq_some_iff (l : List (Option Nat)) (t : Nat) :
    newestPress l = some t ↔ some t ∈ l ∧ ∀ u, some u ∈ l → u ≤ t := by
  induction l generalizing t with
  | nil => simp [newestPress]
  | cons e rest ih =>
    cases e with
    | none => simp [newestPress, ih]
    | some e =>
      simp only [newestPress]
      cases h : newestPress rest with
      | none =>
        have hn : ∀ u, some u ∉ rest := by
          intro u hu
          obtain ⟨m, hm⟩ : ∃ m, newestPress rest = some m := by
            clear ih h
            induction rest with
            | nil => simp at hu
            | cons f r ihr =>
              cases f with
              | none => exact ihr (by simpa using hu)
              | some f =>
                simp only [newestPress]
                cases newestPress r <;> exact ⟨_, rfl⟩
          rw [h] at hm
          cases hm
        constructor
        · rintro ⟨⟩
          refine ⟨by simp, fun u hu => ?_⟩
          rcases List.mem_cons.mp hu with h1 | h1
          · cases h1
            exact Nat.le_refl _
          · exact absurd h1 (hn u)
        · rintro ⟨h1, _⟩
          rcases List.mem_cons.mp h1 with h1 | h1
          · exact h1.symm
          · exact absurd h1 (hn t)
      | some m =>
        obtain ⟨hm1, hm2⟩ := (ih m).mp h
        constructor
        · rintro ⟨⟩
          refine ⟨?_, fun u hu => ?_⟩
          · rcases Nat.le_total e m with h1 | h1
            · rw [Nat.max_eq_right h1]; exact List.mem_cons_of_mem _ hm1
            · rw [Nat.max_eq_left h1]; exact List.mem_cons_self
          · rcases List.mem_cons.mp hu with h1 | h1
            · cases h1; exact Nat.le_max_left _ _
            · exact Nat.le_trans (hm2 u h1) (Nat.le_max_right _ _)
        · rintro ⟨h1, h2⟩
          have h3 := h2 e List.mem_cons_self
          have h4 := h2 m (List.mem_cons_of_mem _ hm1)
          have h6 : max e m = t := by
            rcases List.mem_cons.mp h1 with h5 | h5
            · cases h5
              exact Nat.max_eq_left h4
            · have := hm2 t h5
              omega
          simp [h6]

/-- The first index that holds a time. -/
theorem firstPressedAt_eq_some_iff (t : Nat) (l : List (Option Nat)) (n : Nat) (k : Reg) (h : n + l.length ≤ 16) :
    firstPressedAt t l n = some k ↔
      ∃ j, l[j]? = some (some t) ∧ (∀ i, i < j → l[i]? ≠ some (some t)) ∧ k.toNat = n + j := by
  induction l generalizing n with
  | nil => simp [firstPressedAt]
  | cons e rest ih =>
    simp only [List.length_cons] at h
    simp only [firstPressedAt]
    by_cases he : e = some t
    · rw [if_pos he]
      constructor
      · rintro ⟨⟩
        exact ⟨0, by simp [he], by omega, by simp; omega⟩
      · rintro ⟨j, h1, h2, h3⟩
        have hj : j = 0 := by
          by_contra hne
          exact h2 0 (by omega) (by simp [he])
        subst hj
        congr 1
        apply BitVec.eq_of_toNat_eq
        simp
        omega
    · rw [if_neg he, ih (n + 1) (by omega)]
      constructor
      · rintro ⟨j, h1, h2, h3⟩
        refine ⟨j + 1, by simpa using h1, fun i hi => ?_, by omega⟩
        cases i with
        | zero => simpa using he
        | succ i => simpa using h2 i (by omega)
      · rintro ⟨j, h1, h2, h3⟩
        cases j with
        | zero => simp at h1; exact absurd h1 he
        | succ j => exact ⟨j, by simpa using h1, fun i hi => by simpa using h2 (i + 1) (by omega), by omega⟩

end Sys2Proof.Machine
end

