-- ==== Sys2Proof/Laws/Decode.lean ====
section
/-! SUPPORT. The fields of a packed word, and a word as its fields: the decoder's and the encoder's small lemmas
(00_scope R11, 30_encoding R71). -/

namespace Sys2Proof

variable (f : BitVec 4) (x y : Reg) (n : Imm4) (nn : Imm8) (nnn : Imm12)

/-! ### The bits of a packed word -/

theorem getLsbD_wordNNN (i : Nat) :
    (wordNNN f nnn).getLsbD i = if i < 12 then nnn.getLsbD i else f.getLsbD (i - 12) := by
  have h := BitVec.getLsbD_append (x := f) (y := nnn) (i := i)
  split_ifs at h ⊢ <;> exact h

theorem getLsbD_wordXNN (i : Nat) :
    (wordXNN f x nn).getLsbD i =
      if i < 8 then nn.getLsbD i else if i < 12 then x.getLsbD (i - 8) else f.getLsbD (i - 12) := by
  have h := BitVec.getLsbD_append (x := f ++ x) (y := nn) (i := i)
  have h' := BitVec.getLsbD_append (x := f) (y := x) (i := i - 8)
  rw [show wordXNN f x nn = (f ++ x) ++ nn from rfl]
  rw [h, h']
  grind

theorem getLsbD_wordXYN (i : Nat) :
    (wordXYN f x y n).getLsbD i =
      if i < 4 then n.getLsbD i
      else if i < 8 then y.getLsbD (i - 4)
      else if i < 12 then x.getLsbD (i - 8)
      else f.getLsbD (i - 12) := by
  have h := BitVec.getLsbD_append (x := f ++ x ++ y) (y := n) (i := i)
  have h' := BitVec.getLsbD_append (x := f ++ x) (y := y) (i := i - 4)
  have h'' := BitVec.getLsbD_append (x := f) (y := x) (i := i - 4 - 4)
  rw [show wordXYN f x y n = (f ++ x ++ y) ++ n from rfl]
  rw [h, h', h'']
  grind

/-! ### The fields of a packed word -/

@[simp] theorem fieldFamily_wordNNN : fieldFamily (wordNNN f nnn) = f := by
  ext i hi
  simp [fieldFamily, getLsbD_wordNNN]
  grind

@[simp] theorem fieldNNN_wordNNN : fieldNNN (wordNNN f nnn) = nnn := by
  ext i hi
  simp [fieldNNN, getLsbD_wordNNN]
  grind

@[simp] theorem fieldX_wordNNN : fieldX (wordNNN f nnn) = nnn.extractLsb' 8 4 := by
  ext i hi
  simp [fieldX, getLsbD_wordNNN]
  grind

@[simp] theorem fieldFamily_wordXNN : fieldFamily (wordXNN f x nn) = f := by
  ext i hi
  simp [fieldFamily, getLsbD_wordXNN]
  grind

@[simp] theorem fieldX_wordXNN : fieldX (wordXNN f x nn) = x := by
  ext i hi
  simp [fieldX, getLsbD_wordXNN]
  grind

@[simp] theorem fieldNN_wordXNN : fieldNN (wordXNN f x nn) = nn := by
  ext i hi
  simp [fieldNN, getLsbD_wordXNN]
  grind

@[simp] theorem fieldFamily_wordXYN : fieldFamily (wordXYN f x y n) = f := by
  ext i hi
  simp [fieldFamily, getLsbD_wordXYN]
  grind

@[simp] theorem fieldX_wordXYN : fieldX (wordXYN f x y n) = x := by
  ext i hi
  simp [fieldX, getLsbD_wordXYN]
  grind

@[simp] theorem fieldY_wordXYN : fieldY (wordXYN f x y n) = y := by
  ext i hi
  simp [fieldY, getLsbD_wordXYN]
  grind

@[simp] theorem fieldN_wordXYN : fieldN (wordXYN f x y n) = n := by
  ext i hi
  simp [fieldN, getLsbD_wordXYN]
  grind

/-! ### A word is its fields -/

theorem wordNNN_fields (w : Word) : wordNNN (fieldFamily w) (fieldNNN w) = w := by
  apply BitVec.eq_of_getLsbD_eq
  intro i hi
  rw [getLsbD_wordNNN]
  simp [fieldFamily, fieldNNN]
  grind

theorem wordXNN_fields (w : Word) : wordXNN (fieldFamily w) (fieldX w) (fieldNN w) = w := by
  apply BitVec.eq_of_getLsbD_eq
  intro i hi
  rw [getLsbD_wordXNN]
  simp [fieldFamily, fieldX, fieldNN]
  grind

theorem wordXYN_fields (w : Word) : wordXYN (fieldFamily w) (fieldX w) (fieldY w) (fieldN w) = w := by
  apply BitVec.eq_of_getLsbD_eq
  intro i hi
  rw [getLsbD_wordXYN]
  simp [fieldFamily, fieldX, fieldY, fieldN]
  grind

/-- X is the top nibble of NNN (30_encoding R72). -/
theorem fieldX_eq_fieldNNN (w : Word) : fieldX w = (fieldNNN w).extractLsb' 8 4 := by
  ext i hi
  simp [fieldX, fieldNNN]

/-! ### A word under the masks of the opcode map (30_encoding R74) -/

theorem wordNNN_mask : wordNNN f nnn &&& 0xF000#16 = wordNNN f 0#12 := by
  apply BitVec.eq_of_getLsbD_eq
  intro i hi
  rw [BitVec.getLsbD_and, getLsbD_wordNNN, getLsbD_wordNNN]
  interval_cases i <;> simp

theorem wordXNN_mask : wordXNN f x nn &&& 0xF000#16 = wordXNN f 0#4 0#8 := by
  apply BitVec.eq_of_getLsbD_eq
  intro i hi
  rw [BitVec.getLsbD_and, getLsbD_wordXNN, getLsbD_wordXNN]
  interval_cases i <;> simp

theorem wordXNN_mask_low : wordXNN f x nn &&& 0xF0FF#16 = wordXNN f 0#4 nn := by
  apply BitVec.eq_of_getLsbD_eq
  intro i hi
  rw [BitVec.getLsbD_and, getLsbD_wordXNN, getLsbD_wordXNN]
  interval_cases i <;> simp

theorem wordXYN_mask : wordXYN f x y n &&& 0xF000#16 = wordXYN f 0#4 0#4 0#4 := by
  apply BitVec.eq_of_getLsbD_eq
  intro i hi
  rw [BitVec.getLsbD_and, getLsbD_wordXYN, getLsbD_wordXYN]
  interval_cases i <;> simp

theorem wordXYN_mask_low : wordXYN f x y n &&& 0xF00F#16 = wordXYN f 0#4 0#4 n := by
  apply BitVec.eq_of_getLsbD_eq
  intro i hi
  rw [BitVec.getLsbD_and, getLsbD_wordXYN, getLsbD_wordXYN]
  interval_cases i <;> simp

/-! ### Words and bytes -/

/-- A word's bytes, laid out big-endian, give the word again (20_memory R51). -/
theorem wordOfBytes_bytesOfWord (w : Word) : wordOfBytes (w.extractLsb' 8 8) (w.extractLsb' 0 8) = w := by
  apply BitVec.eq_of_getLsbD_eq
  intro i hi
  have h := BitVec.getLsbD_append (x := w.extractLsb' 8 8) (y := w.extractLsb' 0 8) (i := i)
  rw [show wordOfBytes (w.extractLsb' 8 8) (w.extractLsb' 0 8) = w.extractLsb' 8 8 ++ w.extractLsb' 0 8 from rfl]
  rw [h]
  simp
  grind

end Sys2Proof
end

