-- ==== Sys2Proof/Laws/PerInstr.lean ====
section
/-! SUPPORT. Per-instruction lemmas. `RowMatch`: an instruction's word selects the row that 30_encoding R74 prints for it. -/

namespace Sys2Proof.Laws.RowMatch

/-- The encoded word selects the instruction's own row. -/
def Statement (i : Instr) : Prop := i.row.selects (encode i) = true

theorem cls : Statement .cls := by
  show _ = true
  decide

theorem ret : Statement .ret := by
  show _ = true
  decide

theorem jp (nnn : Imm12) : Statement (.jp nnn) := by
  simp only [Statement, OpcodeRow.selects, Instr.row, encode]
  rw [wordNNN_mask]
  decide

theorem call (nnn : Imm12) : Statement (.call nnn) := by
  simp only [Statement, OpcodeRow.selects, Instr.row, encode]
  rw [wordNNN_mask]
  decide

theorem seImm (x : Reg) (nn : Imm8) : Statement (.seImm x nn) := by
  simp only [Statement, OpcodeRow.selects, Instr.row, encode]
  rw [wordXNN_mask]
  decide

theorem sneImm (x : Reg) (nn : Imm8) : Statement (.sneImm x nn) := by
  simp only [Statement, OpcodeRow.selects, Instr.row, encode]
  rw [wordXNN_mask]
  decide

theorem seReg (x y : Reg) : Statement (.seReg x y) := by
  simp only [Statement, OpcodeRow.selects, Instr.row, encode]
  rw [wordXYN_mask_low]
  decide

theorem ldImm (x : Reg) (nn : Imm8) : Statement (.ldImm x nn) := by
  simp only [Statement, OpcodeRow.selects, Instr.row, encode]
  rw [wordXNN_mask]
  decide

theorem addImm (x : Reg) (nn : Imm8) : Statement (.addImm x nn) := by
  simp only [Statement, OpcodeRow.selects, Instr.row, encode]
  rw [wordXNN_mask]
  decide

theorem ldReg (x y : Reg) : Statement (.ldReg x y) := by
  simp only [Statement, OpcodeRow.selects, Instr.row, encode]
  rw [wordXYN_mask_low]
  decide

theorem orReg (x y : Reg) : Statement (.orReg x y) := by
  simp only [Statement, OpcodeRow.selects, Instr.row, encode]
  rw [wordXYN_mask_low]
  decide

theorem andReg (x y : Reg) : Statement (.andReg x y) := by
  simp only [Statement, OpcodeRow.selects, Instr.row, encode]
  rw [wordXYN_mask_low]
  decide

theorem xorReg (x y : Reg) : Statement (.xorReg x y) := by
  simp only [Statement, OpcodeRow.selects, Instr.row, encode]
  rw [wordXYN_mask_low]
  decide

theorem addReg (x y : Reg) : Statement (.addReg x y) := by
  simp only [Statement, OpcodeRow.selects, Instr.row, encode]
  rw [wordXYN_mask_low]
  decide

theorem subReg (x y : Reg) : Statement (.subReg x y) := by
  simp only [Statement, OpcodeRow.selects, Instr.row, encode]
  rw [wordXYN_mask_low]
  decide

theorem subnReg (x y : Reg) : Statement (.subnReg x y) := by
  simp only [Statement, OpcodeRow.selects, Instr.row, encode]
  rw [wordXYN_mask_low]
  decide

theorem shrReg (x y : Reg) : Statement (.shrReg x y) := by
  simp only [Statement, OpcodeRow.selects, Instr.row, encode]
  rw [wordXYN_mask_low]
  decide

theorem shlReg (x y : Reg) : Statement (.shlReg x y) := by
  simp only [Statement, OpcodeRow.selects, Instr.row, encode]
  rw [wordXYN_mask_low]
  decide

theorem sneReg (x y : Reg) : Statement (.sneReg x y) := by
  simp only [Statement, OpcodeRow.selects, Instr.row, encode]
  rw [wordXYN_mask_low]
  decide

theorem ldIndex (nnn : Imm12) : Statement (.ldIndex nnn) := by
  simp only [Statement, OpcodeRow.selects, Instr.row, encode]
  rw [wordNNN_mask]
  decide

theorem jpV0 (x : Reg) (nnn : Imm12) : Statement (.jpV0 x nnn) := by
  simp only [Statement, OpcodeRow.selects, Instr.row, encode]
  rw [wordNNN_mask]
  decide

theorem rnd (x : Reg) (nn : Imm8) : Statement (.rnd x nn) := by
  simp only [Statement, OpcodeRow.selects, Instr.row, encode]
  rw [wordXNN_mask]
  decide

theorem drw (x y : Reg) (n : Imm4) : Statement (.drw x y n) := by
  simp only [Statement, OpcodeRow.selects, Instr.row, encode]
  rw [wordXYN_mask]
  decide

theorem skp (x : Reg) : Statement (.skp x) := by
  simp only [Statement, OpcodeRow.selects, Instr.row, encode]
  rw [wordXNN_mask_low]
  decide

theorem sknp (x : Reg) : Statement (.sknp x) := by
  simp only [Statement, OpcodeRow.selects, Instr.row, encode]
  rw [wordXNN_mask_low]
  decide

theorem ldFromDelay (x : Reg) : Statement (.ldFromDelay x) := by
  simp only [Statement, OpcodeRow.selects, Instr.row, encode]
  rw [wordXNN_mask_low]
  decide

theorem ldDelay (x : Reg) : Statement (.ldDelay x) := by
  simp only [Statement, OpcodeRow.selects, Instr.row, encode]
  rw [wordXNN_mask_low]
  decide

theorem ldSound (x : Reg) : Statement (.ldSound x) := by
  simp only [Statement, OpcodeRow.selects, Instr.row, encode]
  rw [wordXNN_mask_low]
  decide

theorem addIndex (x : Reg) : Statement (.addIndex x) := by
  simp only [Statement, OpcodeRow.selects, Instr.row, encode]
  rw [wordXNN_mask_low]
  decide

theorem ldKey (x : Reg) : Statement (.ldKey x) := by
  simp only [Statement, OpcodeRow.selects, Instr.row, encode]
  rw [wordXNN_mask_low]
  decide

theorem ldFont (x : Reg) : Statement (.ldFont x) := by
  simp only [Statement, OpcodeRow.selects, Instr.row, encode]
  rw [wordXNN_mask_low]
  decide

theorem ldBcd (x : Reg) : Statement (.ldBcd x) := by
  simp only [Statement, OpcodeRow.selects, Instr.row, encode]
  rw [wordXNN_mask_low]
  decide

theorem storeRegs (x : Reg) : Statement (.storeRegs x) := by
  simp only [Statement, OpcodeRow.selects, Instr.row, encode]
  rw [wordXNN_mask_low]
  decide

theorem loadRegs (x : Reg) : Statement (.loadRegs x) := by
  simp only [Statement, OpcodeRow.selects, Instr.row, encode]
  rw [wordXNN_mask_low]
  decide

end Sys2Proof.Laws.RowMatch
end

