-- ==== Sys2Proof/Tests/Slice0.lean ====
section
/-! SUPPORT. Tests of single steps, decoder words written out from the spec, and for every statement with hypotheses a
witness that meets them. Expected results are the vectors of 95_test_vectors or read off the rules. -/

namespace Sys2Proof.Tests

open Sys2Proof.Machine

/-! ### Helpers -/

/-- The reset state with a ROM extent of all 3584 bytes and a recency window of 1000 ticks. -/
def fresh : State :=
  { State.reset with cfg := { State.reset.cfg with romLen := 3584, keyWindow := 1000 } }

/-- The six toggles, each as given. -/
def withQuirks (s : State) (q : Quirks) : State := { s with cfg := { s.cfg with quirks := q } }

/-- The outcome is a next state that passes the check. -/
def nextIs (o : Host.Outcome State Fault Refusal) (ok : State → Bool) : Bool :=
  match o with
  | .next t => ok t
  | _ => false

/-- One step of the state with the word placed at its `PC`. -/
def runs (w : Word) (s : State) (ok : State → Bool) : Bool := nextIs (step (s.placeWord w)) ok

/-- Registers set from a list. -/
def withRegs (s : State) : List (Reg × Byte) → State
  | [] => s
  | (x, d) :: rest => withRegs (s.setReg x d) rest

/-- The cells that are on in rows of the bitmap, as the 64 bits of one row. -/
def rowBits (t : State) (y : Fin 32) : BitVec 64 := t.display[y]

/-- A key table with the listed times. -/
def keyTable (l : List (Fin 16 × Nat)) : Vector (Option Nat) 16 :=
  l.foldl (fun v e => v.set e.1.val (some e.2) e.1.isLt) (Vector.replicate 16 none)

/-! ### WellFormed: the one check, X of `BNNN` -/

theorem test_wf_refuses_jpV0 : Instr.wf (.jpV0 0x1 0x2FF) = false := by decide

theorem test_wf_accepts_jpV0 : Instr.wf (.jpV0 0x2 0x2FF) = true := by decide

theorem test_wf_accepts_drw : Instr.wf (.drw 0xF 0xF 0xF) = true := by decide

/-! ### Decoding: words written out bit by bit from 30_encoding R71 and R74 -/

theorem test_decode_cls : decodeWord 0b0000000011100000#16 = some .cls := by decide
theorem test_decode_ret : decodeWord 0b0000000011101110#16 = some .ret := by decide
theorem test_decode_jp : decodeWord 0b0001001000110100#16 = some (.jp 0x234) := by decide
theorem test_decode_call : decodeWord 0b0010001100000001#16 = some (.call 0x301) := by decide
theorem test_decode_seImm : decodeWord 0b0011101001000010#16 = some (.seImm 0xA 0x42) := by decide
theorem test_decode_sneImm : decodeWord 0b0100101001000010#16 = some (.sneImm 0xA 0x42) := by decide
theorem test_decode_seReg : decodeWord 0b0101000100100000#16 = some (.seReg 1 2) := by decide
theorem test_decode_ldImm : decodeWord 0b0110111110101011#16 = some (.ldImm 0xF 0xAB) := by decide
theorem test_decode_addImm : decodeWord 0b0111000111111110#16 = some (.addImm 1 0xFE) := by decide
theorem test_decode_ldReg : decodeWord 0b1000111100010000#16 = some (.ldReg 0xF 1) := by decide
theorem test_decode_orReg : decodeWord 0b1000000111110001#16 = some (.orReg 1 0xF) := by decide
theorem test_decode_andReg : decodeWord 0b1000000100100010#16 = some (.andReg 1 2) := by decide
theorem test_decode_xorReg : decodeWord 0b1000000100100011#16 = some (.xorReg 1 2) := by decide
theorem test_decode_addReg : decodeWord 0b1000101010110100#16 = some (.addReg 0xA 0xB) := by decide
theorem test_decode_subReg : decodeWord 0b1000000100100101#16 = some (.subReg 1 2) := by decide
theorem test_decode_shrReg : decodeWord 0b1000000100100110#16 = some (.shrReg 1 2) := by decide
theorem test_decode_subnReg : decodeWord 0b1000000100100111#16 = some (.subnReg 1 2) := by decide
theorem test_decode_shlReg : decodeWord 0b1000000100101110#16 = some (.shlReg 1 2) := by decide
theorem test_decode_sneReg : decodeWord 0b1001000100100000#16 = some (.sneReg 1 2) := by decide
theorem test_decode_ldIndex : decodeWord 0b1010111111111110#16 = some (.ldIndex 0xFFE) := by decide
theorem test_decode_jpV0 : decodeWord 0b1011001011111111#16 = some (.jpV0 2 0x2FF) := by decide
theorem test_decode_rnd : decodeWord 0b1100000111110000#16 = some (.rnd 1 0xF0) := by decide
theorem test_decode_drw : decodeWord 0b1101000100100101#16 = some (.drw 1 2 5) := by decide
theorem test_decode_skp : decodeWord 0b1110000110011110#16 = some (.skp 1) := by decide
theorem test_decode_sknp : decodeWord 0b1110000110100001#16 = some (.sknp 1) := by decide
theorem test_decode_ldFromDelay : decodeWord 0b1111000100000111#16 = some (.ldFromDelay 1) := by decide
theorem test_decode_ldKey : decodeWord 0b1111010100001010#16 = some (.ldKey 5) := by decide
theorem test_decode_ldDelay : decodeWord 0b1111000100010101#16 = some (.ldDelay 1) := by decide
theorem test_decode_ldSound : decodeWord 0b1111000100011000#16 = some (.ldSound 1) := by decide
theorem test_decode_addIndex : decodeWord 0b1111000100011110#16 = some (.addIndex 1) := by decide
theorem test_decode_ldFont : decodeWord 0b1111000100101001#16 = some (.ldFont 1) := by decide
theorem test_decode_ldBcd : decodeWord 0b1111000100110011#16 = some (.ldBcd 1) := by decide
theorem test_decode_storeRegs : decodeWord 0b1111001101010101#16 = some (.storeRegs 3) := by decide
theorem test_decode_loadRegs : decodeWord 0b1111111101100101#16 = some (.loadRegs 15) := by decide

/-- E4 to E21: the words the spec lists as `UNKNOWN`. -/
theorem test_decode_unknown_words :
    [0x00E1#16, 0x01E0, 0x0000, 0x0FFF, 0x5121, 0x9001, 0x8008, 0x800F, 0xE19F, 0xF000, 0xF075, 0xFFFF].all
      (fun w => decodeWord w == none) = true := by decide

/-- E23: the byte at the lower address is the high byte. -/
theorem test_decode_big_endian : decode [0x12, 0x34, 0x56] = .ok (.jp 0x234, [0x56]) := by decide

/-- No instruction in fewer than two bytes. -/
theorem test_decode_truncated : decode [0x12] = .error (.truncated [0x12]) := by decide

/-! ### The opcode map, for the host's two questions -/

theorem test_tableWord_decodes : decodeTableWord 16 0xD125 = some (.drw 1 2 5) := by decide

/-- The placed word is the one the next step runs, from reset. -/
theorem test_withFetchWord_runs : nextIs (step (State.reset.withFetchWord 16 0x6AB7)) (fun t =>
    t.reg 0xA == 0xB7 && t.pc == 0x202) = true := by decide

/-! ### Control flow (95_test_vectors 2.2) -/

/-- F1. -/
theorem test_jp : runs 0x1ABC fresh (fun t => t.pc == 0x0ABC) = true := by decide

/-- F4: the sixteenth entry. -/
theorem test_call_last_entry : runs 0x2300 ({ fresh with sp := 15, pc := 0x2FE }) (fun t =>
    t.stack[15] == 0x0300 && t.sp == 16 && t.pc == 0x300 && !t.out.stackOverflow) = true := by decide

/-- F5: a rejected push still jumps. -/
theorem test_call_overflow : runs 0x2300 ({ fresh with sp := 16 }) (fun t =>
    t.sp == 16 && t.stack == fresh.stack && t.pc == 0x300 && t.out.stackOverflow) = true := by decide

/-- F6. -/
theorem test_ret : runs 0x00EE
    ({ fresh with sp := 2, pc := 0x300, stack := (fresh.stack.set 0 0x0202).set 1 0x0456 }) (fun t =>
    t.pc == 0x0456 && t.sp == 1) = true := by decide

/-- F7. -/
theorem test_ret_underflow : runs 0x00EE fresh (fun t =>
    t.pc == 0 && t.sp == 0 && t.out.stackUnderflow && !t.halted) = true := by decide

/-- F8. -/
theorem test_seImm_skips : runs 0x3A42 (withRegs fresh [(0xA, 0x42)]) (fun t => t.pc == 0x204) = true := by decide

/-- F9. -/
theorem test_seImm_goes_on : runs 0x3A42 (withRegs fresh [(0xA, 0x43)]) (fun t => t.pc == 0x202) = true := by decide

/-- F11. -/
theorem test_sneImm_goes_on : runs 0x4A42 (withRegs fresh [(0xA, 0x42)]) (fun t => t.pc == 0x202) = true := by decide

/-- F12. -/
theorem test_sneImm_skips : runs 0x4A42 fresh (fun t => t.pc == 0x204) = true := by decide

/-- F13. -/
theorem test_seReg_skips : runs 0x5120 (withRegs fresh [(1, 9), (2, 9)]) (fun t => t.pc == 0x204) = true := by decide

/-- F14. -/
theorem test_seReg_goes_on : runs 0x5120 (withRegs fresh [(1, 9), (2, 8)]) (fun t => t.pc == 0x202) = true := by decide

/-- F16. -/
theorem test_sneReg_skips : runs 0x9120 (withRegs fresh [(1, 9), (2, 8)]) (fun t => t.pc == 0x204) = true := by decide

/-- F17. -/
theorem test_sneReg_goes_on : runs 0x9110 (withRegs fresh [(1, 9)]) (fun t => t.pc == 0x202) = true := by decide

/-- F20: not masked to 12 bits. -/
theorem test_jpV0_unmasked : runs 0xBFFF (withRegs fresh [(0, 0xFF)]) (fun t => t.pc == 0x10FE) = true := by decide

/-- F19. -/
theorem test_jpV0_register : runs 0xB2FF
    (withQuirks (withRegs fresh [(0, 0xFF), (2, 0x01)]) { quirksOff with jumpingWithRegister := true })
    (fun t => t.pc == 0x300) = true := by decide

/-- E6 executed: a reported no-op. -/
theorem test_unknown : runs 0x0000 ({ fresh with pc := 0x206 }) (fun t =>
    t.pc == 0x208 && t.out.unknown == some 0x0000) = true := by decide

/-! ### Registers and arithmetic (95_test_vectors 2.3) -/

/-- A1. -/
theorem test_ldImm : runs 0x6FAB fresh (fun t => t.reg 0xF == 0xAB) = true := by decide

/-- A2. -/
theorem test_addImm : runs 0x70FF (withRegs fresh [(0, 1), (0xF, 7)]) (fun t =>
    t.reg 0 == 0 && t.reg 0xF == 7) = true := by decide

/-- A4. -/
theorem test_ldReg : runs 0x8F10 (withRegs fresh [(1, 3)]) (fun t => t.reg 0xF == 3) = true := by decide

/-- A5: the source is `VF`, read before it is cleared. -/
theorem test_orReg_resets_vf : runs 0x81F1
    (withQuirks (withRegs fresh [(1, 1), (0xF, 2)]) { quirksOff with vfReset := true })
    (fun t => t.reg 1 == 3 && t.reg 0xF == 0) = true := by decide

/-- A6. -/
theorem test_orReg_keeps_vf : runs 0x81F1 (withRegs fresh [(1, 1), (0xF, 2)]) (fun t =>
    t.reg 1 == 3 && t.reg 0xF == 2) = true := by decide

/-- A7b. -/
theorem test_andReg : runs 0x8012
    (withQuirks (withRegs fresh [(0, 0x3C), (1, 0x0F), (0xF, 9)]) { quirksOff with vfReset := true })
    (fun t => t.reg 0 == 0x0C && t.reg 0xF == 0) = true := by decide

/-- A7b. -/
theorem test_xorReg : runs 0x8013
    (withQuirks (withRegs fresh [(0, 0x3C), (1, 0x0F), (0xF, 9)]) { quirksOff with vfReset := true })
    (fun t => t.reg 0 == 0x33 && t.reg 0xF == 0) = true := by decide

/-- A8. -/
theorem test_addReg : runs 0x8014 (withRegs fresh [(0, 200), (1, 100)]) (fun t =>
    t.reg 0 == 0x2C && t.reg 0xF == 1) = true := by decide

/-- A12: the flag register as destination keeps the flag. -/
theorem test_addReg_vf : runs 0x8F14 (withRegs fresh [(0xF, 0xFF), (1, 0x11)]) (fun t => t.reg 0xF == 1) = true := by
  decide

/-- A15. -/
theorem test_subReg : runs 0x8015 (withRegs fresh [(0, 4), (1, 5)]) (fun t =>
    t.reg 0 == 0xFF && t.reg 0xF == 0) = true := by decide

/-- A14. -/
theorem test_subReg_equal : runs 0x8015 (withRegs fresh [(0, 5), (1, 5)]) (fun t =>
    t.reg 0 == 0 && t.reg 0xF == 1) = true := by decide

/-- A19. -/
theorem test_subnReg : runs 0x8017 (withRegs fresh [(0, 3), (1, 5)]) (fun t =>
    t.reg 0 == 2 && t.reg 0xF == 1 && t.reg 1 == 5) = true := by decide

/-- A20. -/
theorem test_subnReg_borrow : runs 0x8017 (withRegs fresh [(0, 5), (1, 3)]) (fun t =>
    t.reg 0 == 0xFE && t.reg 0xF == 0) = true := by decide

/-- A22. -/
theorem test_shrReg : runs 0x8126 (withRegs fresh [(1, 0xAA), (2, 0x03)]) (fun t =>
    t.reg 1 == 0x01 && t.reg 0xF == 1 && t.reg 2 == 0x03) = true := by decide

/-- A24. -/
theorem test_shrReg_in_place : runs 0x8126
    (withQuirks (withRegs fresh [(1, 0xAA), (2, 0x03)]) { quirksOff with shiftingSource := true })
    (fun t => t.reg 1 == 0x55 && t.reg 0xF == 0) = true := by decide

/-- A29. -/
theorem test_shlReg : runs 0x812E (withRegs fresh [(1, 0xAA), (2, 0x81)]) (fun t =>
    t.reg 1 == 0x02 && t.reg 0xF == 1) = true := by decide

/-- A30. -/
theorem test_shlReg_in_place : runs 0x812E
    (withQuirks (withRegs fresh [(1, 0xAA), (2, 0x81)]) { quirksOff with shiftingSource := true })
    (fun t => t.reg 1 == 0x54 && t.reg 0xF == 1) = true := by decide

/-- A33, with the free sample set to the vector's. -/
theorem test_rnd : runs 0xC1F0 ({ fresh with inputs := ⟨0, 0, 0x5A⟩ }) (fun t => t.reg 1 == 0x50) = true := by decide

/-! ### Index and memory (95_test_vectors 2.4) -/

/-- D1. -/
theorem test_ldIndex : runs 0xAFFF fresh (fun t => t.index == 0x0FFF) = true := by decide

/-- D2. -/
theorem test_addIndex : runs 0xF01E (withRegs { fresh with index := 0x0FFF } [(0, 1), (0xF, 0x55)]) (fun t =>
    t.index == 0x1000 && t.reg 0xF == 0x55 && t.fault == none) = true := by decide

/-- D3. -/
theorem test_addIndex_wraps : runs 0xF01E (withRegs { fresh with index := 0xFFFF } [(0, 2)]) (fun t =>
    t.index == 1) = true := by decide

/-- D5. -/
theorem test_ldFont : runs 0xF029 (withRegs fresh [(0, 0xFF)]) (fun t => t.index == 0x054B) = true := by decide

/-- D7: the last three bytes of memory. -/
theorem test_ldBcd : runs 0xF033 (withRegs { fresh with index := 0xFFD } [(0, 123)]) (fun t =>
    t.byteAt 0xFFD == 1 && t.byteAt 0xFFE == 2 && t.byteAt 0xFFF == 3 && t.fault == none) = true := by decide

/-- D8: nothing is written, `PC` stays, the address is recorded. -/
theorem test_ldBcd_fault : runs 0xF033 (withRegs { fresh with index := 0xFFE, pc := 0x202 } [(0, 123)]) (fun t =>
    t.fault == some 4096 && t.pc == 0x202 && t.byteAt 0xFFE == 0 && t.cycle == 0) = true := by decide

/-- D12, first half, with the toggle on. -/
theorem test_storeRegs : runs 0xF355
    (withQuirks (withRegs { fresh with index := 0x300 } [(0, 0x11), (1, 0x22), (2, 0x33), (3, 0x44)])
      { quirksOff with memoryIncrement := true })
    (fun t => t.byteAt 0x300 == 0x11 && t.byteAt 0x303 == 0x44 && t.index == 0x301) = true := by decide

/-- D11: the recorded address is the lowest out of range. -/
theorem test_storeRegs_fault : runs 0xF055 (withRegs { fresh with index := 0x1234, pc := 0x202 } [(0, 7)]) (fun t =>
    t.fault == some 0x1234 && t.pc == 0x202) = true := by decide

/-- D14. -/
theorem test_loadRegs : runs 0xF165 ({ fresh with index := 0x400, mem := [(0x400, 0xAA), (0x401, 0xBB)] }) (fun t =>
    t.reg 0 == 0xAA && t.reg 1 == 0xBB && t.reg 2 == 0 && t.index == 0x400) = true := by decide

/-- D15. -/
theorem test_loadRegs_vf : runs 0xFF65 ({ fresh with index := 0x400, mem := [(0x40F, 0x77)] }) (fun t =>
    t.reg 0xF == 0x77) = true := by decide

/-- D17: the fetch of the word at 0x0FFF. -/
theorem test_fetch_fault : nextIs (step { fresh with pc := 0xFFF }) (fun t =>
    t.fault == some 4096 && t.pc == 0xFFF) = true := by decide

/-! ### Display (95_test_vectors 2.5). Bit x of a row is column x. -/

/-- G1. -/
theorem test_cls : runs 0x00E0 ({ fresh with nextFrameDue := 1, display := (fresh.display.set 0 1).set 31 (1 <<< 63) })
    (fun t => t.display == fresh.display && t.displayDirty) = true := by decide

/-- G2. -/
theorem test_drw_glyph : runs 0xD015
    ({ fresh with index := 0x300, mem := [(0x300, 0xF0), (0x301, 0x90), (0x302, 0x90), (0x303, 0x90), (0x304, 0xF0)] })
    (fun t => rowBits t 0 == 0xF && rowBits t 1 == 0x9 && rowBits t 3 == 0x9 && rowBits t 4 == 0xF && rowBits t 5 == 0 &&
      t.reg 0xF == 0) = true := by decide

/-- G5 with the toggle off: the sprite wraps to columns 0 to 6. -/
theorem test_drw_wraps : runs 0xD011 (withRegs { fresh with index := 0x300, mem := [(0x300, 0xFF)] } [(0, 63)])
    (fun t => rowBits t 0 == 0x800000000000007F && t.reg 0xF == 0) = true := by decide

/-- G6 with the toggle on: the second row is clipped. -/
theorem test_drw_clips_rows : runs 0xD012
    (withQuirks (withRegs { fresh with index := 0x300, mem := [(0x300, 0x80), (0x301, 0x80)] } [(1, 31)])
      { quirksOff with clipping := true })
    (fun t => rowBits t 31 == 1 && rowBits t 0 == 0) = true := by decide

/-- G7. -/
theorem test_drw_collides : runs 0xD011
    ({ fresh with index := 0x300, mem := [(0x300, 0xC0)], display := fresh.display.set 0 1 })
    (fun t => rowBits t 0 == 2 && t.reg 0xF == 1) = true := by decide

/-- G8: a clipped pixel cannot collide. -/
theorem test_drw_clipped_no_hit : runs 0xD011
    (withQuirks (withRegs { fresh with index := 0x300, mem := [(0x300, 0x30)], display := fresh.display.set 0 1 }
      [(0, 62)]) { quirksOff with clipping := true })
    (fun t => rowBits t 0 == 1 && t.reg 0xF == 0) = true := by decide

/-- G18: deferral is tested before the range check. -/
theorem test_drw_deferred : runs 0xD012
    (withQuirks { fresh with index := 0xFFF, pc := 0x204, displayWaitCounter := 1, nextFrameDue := 1 }
      { quirksOff with displayWait := true })
    (fun t => t.pc == 0x204 && t.fault == none && t.displayWaitCounter == 1) = true := by decide

/-- G17: the check covers the rows that clipping would skip. -/
theorem test_drw_fault : runs 0xD012
    (withQuirks (withRegs { fresh with index := 0xFFF, pc := 0x204 } [(1, 31)]) { quirksOff with clipping := true })
    (fun t => t.fault == some 4096 && t.pc == 0x204 && t.display == fresh.display) = true := by decide

/-! ### Keys, timers, phases (95_test_vectors 2.6) -/

/-- K2: an age equal to the window counts. -/
theorem test_currentKey_at_window :
    ({ fresh with keyLastPressed := keyTable [(3, 5)], inputs := ⟨1005, 0, 0⟩ } : State).currentKey = some 3 := by decide

/-- K3. -/
theorem test_currentKey_past_window :
    ({ fresh with keyLastPressed := keyTable [(3, 5)], inputs := ⟨1006, 0, 0⟩ } : State).currentKey = none := by decide

/-- K4: the lowest number on a tie. -/
theorem test_currentKey_tie :
    ({ fresh with keyLastPressed := keyTable [(9, 5), (3, 5)], inputs := ⟨5, 0, 0⟩ } : State).currentKey = some 3 := by
  decide

/-- K5. -/
theorem test_currentKey_newest :
    ({ fresh with keyLastPressed := keyTable [(3, 4), (9, 5)], inputs := ⟨5, 0, 0⟩ } : State).currentKey = some 9 := by
  decide

/-- K7. -/
theorem test_skp : runs 0xE09E (withRegs { fresh with keyLastPressed := keyTable [(3, 0)] } [(0, 3)]) (fun t =>
    t.pc == 0x204) = true := by decide

/-- K8: the compare takes all 8 bits. -/
theorem test_skp_eight_bits : runs 0xE09E (withRegs { fresh with keyLastPressed := keyTable [(3, 0)] } [(0, 0x13)])
    (fun t => t.pc == 0x202) = true := by decide

/-- K9. -/
theorem test_sknp : runs 0xE0A1 (withRegs { fresh with keyLastPressed := keyTable [(3, 0)] } [(0, 0x13)]) (fun t =>
    t.pc == 0x204) = true := by decide

/-- K11. -/
theorem test_ldKey_waits : runs 0xF50A (withRegs fresh [(5, 0x66)]) (fun t =>
    t.pc == 0x200 && t.reg 5 == 0x66) = true := by decide

/-- K12. -/
theorem test_ldKey : runs 0xF50A ({ fresh with keyLastPressed := keyTable [(15, 0)] }) (fun t =>
    t.reg 5 == 0x0F && t.pc == 0x202) = true := by decide

/-- K13. -/
theorem test_ldFromDelay : runs 0xF107 ({ fresh with delayTimer := 0x2A }) (fun t => t.reg 1 == 0x2A) = true := by decide

/-- K14. -/
theorem test_ldDelay : runs 0xF115 (withRegs fresh [(1, 0x2A)]) (fun t => t.delayTimer == 0x2A) = true := by decide

/-- K18: the timer phase of the same cycle passes. -/
theorem test_ldSound : runs 0xF018 (withRegs { fresh with inputs := ⟨16666667, 0, 0⟩ } [(0, 1)]) (fun t =>
    t.soundTimer == 0 && !t.out.tone) = true := by decide

/-- K15 and K16: the comparison is strict. -/
theorem test_timerPhase :
    ({ fresh with inputs := ⟨16666666, 0, 0⟩, delayTimer := 5 } : State).timerPhase.delayTimer = 5 ∧
    ({ fresh with inputs := ⟨16666667, 0, 0⟩, delayTimer := 5 } : State).timerPhase.delayTimer = 4 := by decide

/-- K19 and K20. -/
theorem test_framePhase :
    (({ fresh with inputs := ⟨7, 0, 0⟩, nextFrameDue := 7, displayDirty := true } : State).framePhase.out.render,
      ({ fresh with inputs := ⟨7, 0, 0⟩, nextFrameDue := 7 } : State).framePhase.nextFrameDue,
      ({ fresh with inputs := ⟨7, 0, 0⟩, nextFrameDue := 8 } : State).framePhase.out.render) =
    (some true, 16666707, none) := by decide

/-- K21. -/
theorem test_inputPhase :
    ({ fresh with inputs := ⟨77, 0x0208, 0⟩ } : State).inputPhase.keyLastPressed = keyTable [(3, 77), (9, 77)] := by decide

/-! ### Reset and halt (95_test_vectors 2.7) -/

/-- Z1. -/
theorem test_boot : let s := State.boot { resetConfig with romLen := 2 } ⟨#[0x60, 0x05], rfl⟩ ⟨0, 0, 0⟩
    (s.byteAt 0x200, s.byteAt 0x201, s.byteAt 0x202, s.byteAt 0x050, s.byteAt 0x09F, s.halted) =
    (0x60, 0x05, 0x00, 0xF0, 0x80, false) := by decide

/-- The state of Z3. -/
def haltedState : State :=
  { fresh with
    pc := 0x202, delayTimer := 9, inputs := ⟨1000000000, 0xFFFF, 0⟩,
    cfg := { fresh.cfg with romLen := 2 } }

/-- Z3. -/
theorem test_halted_cycle : nextIs (step haltedState) (fun t => t == haltedState) = true := by decide

/-- Z6. -/
theorem test_first_cycle : runs 0x6005 fresh (fun t =>
    t.nextFrameDue == 16666700 && t.out.render == some false && t.lastTimerUpdate == 0) = true := by decide

/-! ### Witnesses

For every statement with hypotheses, a state and operands that meet all of them. A hypothesis `exec i s = .next t` is met
by the state it computes; `nextIs … (fun _ => true)` says that there is one. -/

/-- `DecodeOfEncodeIsTheInstruction`. -/
theorem witness_wellFormed : Instr.wf (.jpV0 0xF 0xFFF) = true ∧ Instr.wf .cls = true := by decide

/-- `DecodedBytesAreTheEncoding`. -/
theorem witness_decoded : decode (0xBF :: 0xFF :: [0x01]) = .ok (.jpV0 0xF 0xFFF, [0x01]) := by decide

/-- `DecoderAgreesWithTheOpcodeMap`, second and third clause. -/
theorem witness_row : decodeWord 0x8AB4 = some (.addReg 0xA 0xB) ∧ ⟨0x8004, 0xF00F⟩ ∈ opcodeMap ∧
    OpcodeRow.selects ⟨0x8004, 0xF00F⟩ 0x8AB4 = true := by decide

/-- A state at the last fetchable word of memory, which is `FX33` with `V0 = 123` and I at or beyond the last place. -/
def lastWord (index : Word) : State :=
  withRegs { fresh with pc := 0xFFE, index := index, mem := [(0xFFE, 0xF0), (0xFFF, 0x33)] } [(0, 123)]

/-- `StepRunsTheDecodedInstruction`: its hypotheses, at the boundary of the fetch, with the instruction completing and
with it faulting. -/
theorem witness_step : [0x0FFD#16, 0x0FFE#16].all (fun index =>
    let s := lastWord index
    s.fault == none && decide (s.pc.toNat < 0x200 + s.cfg.romLen.val) && decide (s.pc.toNat + 1 ≤ 4095) &&
      decide (decode [s.byteAt s.pc.toNat, s.byteAt (s.pc.toNat + 1)] = .ok (.ldBcd 0, [])) &&
      nextIs (exec (.ldBcd 0) s.beginExecute) (fun t => t.fault.isSome == (index == 0x0FFE))) = true := by decide

/-- `UnknownWordIsAReportedNoOp`. -/
theorem witness_unknown : opcodeMap.all (fun r => r.selects 0x0000 == false) = true ∧ fresh.stopped = false ∧
    fresh.fetch = .ok 0x0000 := by decide

/-- `EndedRunChangesNothing`: halted at the first address past the ROM, and faulted. -/
theorem witness_ended : haltedState.stopped = true ∧ ({ fresh with fault := some 4096 } : State).stopped = true := by decide

/-- `FaultAbandonsTheCycle` and `RangeIsCheckedBeforeAnyWrite`: a fetch that faults, and an instruction that faults. -/
theorem witness_fault_fetch : ({ fresh with pc := 0xFFF } : State).stopped = false ∧
    ({ fresh with pc := 0xFFF } : State).fetch = .error 4096 := by decide

theorem witness_fault_execute : (lastWord 0xFFE).stopped = false ∧ (lastWord 0xFFE).fetch = .ok 0xF033 ∧
    nextIs (executeWord 0xF033 (lastWord 0xFFE).beginExecute) (fun t => t.fault == some 4096) = true := by decide

/-- `RangeIsCheckedBeforeAnyWrite`: the last range that fits, and the first that does not. -/
theorem witness_range : fresh.fault = none ∧
    nextIs (exec (.storeRegs 15) { fresh with index := 0xFF0 }) (fun t => t.fault == none) = true ∧
    nextIs (exec (.storeRegs 15) { fresh with index := 0xFF1 }) (fun t => t.fault == some 4096) = true := by decide

/-- `BlockedInstructionIsRetried`, first clause. -/
theorem witness_key_blocked : (fresh.placeWord 0xF50A).stopped = false ∧ (fresh.placeWord 0xF50A).fetch = .ok 0xF50A ∧
    decodeWord 0xF50A = some (.ldKey 5) ∧ (fresh.placeWord 0xF50A).currentKey = none := by decide

/-- A deferred draw at the reset address, its frame due at `due`. -/
def deferredDraw (due : Nat) : State :=
  withQuirks { fresh.placeWord 0xD011 with displayWaitCounter := 1, nextFrameDue := due } { quirksOff with displayWait := true }

/-- `BlockedInstructionIsRetried`, second clause, and `DeferredDrawWaitsForAFrame`: a frame due now and one due a tick later. -/
theorem witness_draw_blocked : [0, 1].all (fun due =>
    let s := deferredDraw due
    !s.stopped && decide (s.fetch = .ok 0xD011) && s.cfg.quirks.displayWait && s.displayWaitCounter != 0) = true ∧
    decodeWord 0xD011 = some (.drw 0 1 1) ∧ (deferredDraw 0).nextFrameDue ≤ (deferredDraw 0).inputs.now ∧
    (deferredDraw 1).inputs.now < (deferredDraw 1).nextFrameDue := by decide

/-- `ConfigurationIsConstant`, `TimeNeverDecreases`: a step that answers a next state. -/
theorem witness_step_next : nextIs (step (fresh.placeWord 0x6005)) (fun _ => true) = true := by decide

/-- `StepKeepsTheInvariant`: a running state, with a listed byte, a key, timers and a deadline, that meets it. -/
def busy : State :=
  { fresh.placeWord 0x6005 with
    inputs := ⟨50, 0, 0⟩, lastTimerUpdate := 50, nextFrameDue := 16666750, keyLastPressed := keyTable [(3, 50)] }

theorem witness_invariant : Inv busy ∧ nextIs (step busy) (fun _ => true) = true := by
  have hk : ∀ k : Fin 16, busy.keyLastPressed[k] = none ∨ busy.keyLastPressed[k] = some 50 := by decide
  refine ⟨⟨by decide, by decide, fun k t h => ?_, by decide, .inl rfl, fun a h => ?_, by decide⟩, by decide⟩
  · rcases hk k with h' | h' <;> rw [h'] at h <;> cases h
    decide
  · cases (show busy.fault = none from rfl).symm.trans h

/-- A state about to run `LD V0, 5`, with the times given. -/
def timed (now last due : Nat) (keys : BitVec 16) : State :=
  { fresh.placeWord 0x6005 with
    inputs := ⟨now, keys, 0⟩, lastTimerUpdate := last, nextFrameDue := due, delayTimer := 5, soundTimer := 1 }

theorem timed_executes (now last due : Nat) (keys : BitVec 16) :
    CycleExecutes (timed now last due keys) ((timed now last due keys).beginExecute.setReg 0 5)
      ((timed now last due keys).beginExecute.setReg 0 5).endCycle :=
  cycleExecutes_of (w := 0x6005) rfl
    ((show (timed now last due keys).fetch = (timed 0 0 0 0).fetch from rfl).trans (by decide)) rfl rfl

/-- `TimerPhaseCountsDown`, `ToneFollowsTheSoundTimer`, `ClosingPhasesFrame`: one tick past the period, and just at it. -/
theorem witness_timer :
    (∃ s t u, CycleExecutes s t u ∧ (1000000000 : Int) < ((t.inputs.now : Int) - t.lastTimerUpdate) * 60) ∧
    (∃ s t u, CycleExecutes s t u ∧ ¬(1000000000 : Int) < ((t.inputs.now : Int) - t.lastTimerUpdate) * 60) :=
  ⟨⟨_, _, _, timed_executes 16666667 0 0 0, by decide⟩, ⟨_, _, _, timed_executes 16666666 0 0 0, by decide⟩⟩

/-- `FramePhaseRendersDueFrames`: due now, and due one tick later. -/
theorem witness_frame :
    (∃ s t u, CycleExecutes s t u ∧ t.nextFrameDue ≤ t.inputs.now) ∧
    (∃ s t u, CycleExecutes s t u ∧ t.inputs.now < t.nextFrameDue) :=
  ⟨⟨_, _, _, timed_executes 7 0 7 0, by decide⟩, ⟨_, _, _, timed_executes 7 0 8 0, by decide⟩⟩

/-- A word that runs without a fault makes an executed cycle. -/
theorem executes_of_check {s : State} {w : Word} (h : s.stopped = false) (hf : s.fetch = .ok w)
    (he : nextIs (executeWord w s.beginExecute) (fun t => t.fault == none) = true) :
    ∃ t u, CycleExecutes s t u := by
  obtain ⟨t, ht⟩ := executeWord_next s.beginExecute w
  exact ⟨t, _, cycleExecutes_of h hf ht (by simpa [ht, nextIs] using he)⟩

/-- A sprite draw at the reset address, its frame due one tick later. -/
def drawNow (wait : Bool) (counter : Nat) : State :=
  withQuirks { fresh.placeWord 0xD011 with displayWaitCounter := counter, nextFrameDue := 1 }
    { quirksOff with displayWait := wait }

/-- `FrameSyncStateMachine`: a draw in `DRAW_READY`, in `DRAW_DONE` and with `display_wait` off, a word that draws nothing
(in `DRAW_DONE`), a frame due now (the deferred draw's) and one due a tick later (the others'). -/
theorem witness_frame_sync :
    (∃ t u, CycleExecutes (drawNow true 0) t u) ∧ (∃ t u, CycleExecutes (deferredDraw 0) t u) ∧
    (∃ t u, CycleExecutes (drawNow false 0) t u) ∧
    (∃ t u, CycleExecutes ({ deferredDraw 1 with mem := (fresh.placeWord 0x6005).mem } : State) t u) :=
  ⟨executes_of_check (w := 0xD011) (by decide) (by decide) (by decide),
   executes_of_check (w := 0xD011) (by decide) (by decide) (by decide),
   executes_of_check (w := 0xD011) (by decide) (by decide) (by decide),
   executes_of_check (w := 0x6005) (by decide) (by decide) (by decide)⟩

/-- `InputPhaseStampsKeysDown`: the lowest and the highest key down, the others up. -/
theorem witness_input : ∃ s t u, CycleExecutes s t u ∧ t.inputs.keysDown = 0x8001 :=
  ⟨_, _, _, timed_executes 7 0 8 0x8001, by decide⟩

/-- `ResetState`: a configuration, a ROM of the greatest length and first inputs. -/
theorem witness_boot : (State.boot { resetConfig with romLen := 3584 } (Vector.replicate 3584 0) ⟨5, 0, 0⟩).pc = 0x200 := by
  decide

/-- `CallPushesAndJumps`, `ReturnPops`: room for one more, full, one entry, none. -/
theorem witness_stack : ({ fresh with sp := 15 } : State).sp.val < 16 ∧ ({ fresh with sp := 16 } : State).sp.val = 16 ∧
    0 < ({ fresh with sp := 1 } : State).sp.val ∧ fresh.sp.val = 0 ∧
    (0 : Fin 16).val + 1 = ({ fresh with sp := 1 } : State).sp.val := by decide

/-- `PopsReversePushes`: sixteen pushes on an empty stack. -/
theorem witness_unwind : fresh.sp.val + (List.replicate 16 (0x202 : Word)).length ≤ 16 ∧
    15 < (List.replicate 16 (0x202 : Word)).length := by decide

/-- `LogicOperations`: each value of the toggle, X other than 15. -/
theorem witness_logic : fresh.cfg.quirks.vfReset = false ∧
    (withQuirks fresh { quirksOff with vfReset := true }).cfg.quirks.vfReset = true ∧ (1 : Reg) ≠ VF := by decide

/-- `AddWithCarryOut`, `SubtractWithNotBorrow`, `ShiftsByOne`: the register beside the flag register. -/
theorem witness_not_vf : (14 : Reg) ≠ VF := by decide

/-- `FlagIsWrittenLast`: an instruction and its flag from the list, and the toggle of its last line. -/
theorem witness_flag :
    (Instr.addReg VF 1 = .addReg VF 1 ∧
      1 = if 255 < ((withRegs fresh [(VF, 0xFF), (1, 1)]).reg VF).toNat + ((withRegs fresh [(VF, 0xFF), (1, 1)]).reg 1).toNat
        then 1 else 0) ∧
    (withQuirks fresh { quirksOff with vfReset := true }).cfg.quirks.vfReset = true := by decide

/-- `DecimalDigitsAreStored`: the last place that fits, and the first that does not. -/
theorem witness_bcd : Memory.wf fresh.cfg.font fresh.mem = true ∧ ({ fresh with index := 0xFFD } : State).index.toNat + 2 ≤ 4095 ∧
    4095 < ({ fresh with index := 0xFFE } : State).index.toNat + 2 := by decide

/-- `RegistersAreStored`, `RegistersAreLoaded`: the same for sixteen registers and for one. -/
theorem witness_block : Memory.wf fresh.cfg.font fresh.mem = true ∧
    ({ fresh with index := 0xFF0 } : State).index.toNat + (15 : Reg).toNat ≤ 4095 ∧
    ({ fresh with index := 0xFFF } : State).index.toNat + (0 : Reg).toNat ≤ 4095 ∧
    4095 < ({ fresh with index := 0xFF1 } : State).index.toNat + (15 : Reg).toNat ∧
    4095 < ({ fresh with index := 0x1000 } : State).index.toNat + (0 : Reg).toNat := by decide

/-- A state with two registers to store at the next instruction's address. -/
def storing : State := withRegs { fresh with index := 0x200 } [(0, 0x60), (1, 0x2A)]

/-- The state `storing` leaves after `F155`. -/
def stored : State := (storing.writeBytes storing.dataBase (storing.firstRegs 2)).bumpIndex 1

/-- `StoreThenLoadRestoresRegisters`: the hypotheses in their order, the registers cleared in between. -/
theorem witness_store_load : ∃ (s t u w : State), Memory.wf s.cfg.font s.mem = true ∧ s.index.toNat + (1 : Reg).toNat ≤ 4095 ∧
    exec (.storeRegs 1) s = .next t ∧ u.cfg = t.cfg ∧ u.mem = t.mem ∧ u.index = s.index ∧
    exec (.loadRegs 1) u = .next w ∧ (1 : Reg).toNat ≤ (1 : Reg).toNat :=
  ⟨storing, stored, { stored with v := fresh.v, index := storing.index }, _,
    by decide, by decide, rfl, rfl, rfl, rfl, rfl, by decide⟩

/-- `StoresAreSeenByTheNextFetch`. -/
theorem witness_store_fetch : Memory.wf storing.cfg.font storing.mem = true ∧ storing.index.toNat + (1 : Reg).toNat ≤ 4095 ∧
    exec (.storeRegs 1) storing = .next stored ∧ (0 : Reg).toNat + 1 ≤ (1 : Reg).toNat ∧
    stored.pc.toNat = storing.index.toNat + (0 : Reg).toNat := ⟨by decide, by decide, rfl, by decide, by decide⟩

/-- A one-row sprite at the top left, with no coordinate in `VF`. -/
def sprite : State := { fresh with index := 0x300, mem := [(0x300, 0x80)] }

/-- `DrawTogglesCoveredCells`: a covered cell, one not covered, a collision and none, the last range that fits, an empty
range out of bounds. -/
theorem witness_draw :
    ¬(sprite.cfg.quirks.displayWait = true ∧ sprite.displayWaitCounter ≠ 0) ∧
    sprite.index.toNat + (1 : Imm4).toNat ≤ 4096 ∧
    SpriteCovers sprite 0 1 1 0 0 ∧ (¬∃ row col, SpriteCovers sprite 0 1 1 row col ∧ Display.cell sprite.display row col = true) ∧
    (∃ row col, SpriteCovers { sprite with display := fresh.display.set 0 1 } 0 1 1 row col ∧
      Display.cell (fresh.display.set 0 1) row col = true) ∧
    ({ fresh with index := 0xFFF } : State).index.toNat + (1 : Imm4).toNat ≤ 4096 ∧ (0 : Imm4).toNat = 0 := by
  refine ⟨by decide, by decide, ⟨0, 0, by decide, by decide, by decide, by unfold landsOn; decide⟩, ?_,
    ⟨0, 0, ⟨0, 0, by decide, by decide, by decide, by unfold landsOn; decide⟩, by decide⟩, by decide, by decide⟩
  rintro ⟨row, col, _, h⟩
  simp [Display.cell, sprite, fresh, State.reset] at h

/-- `DrawTogglesCoveredCells`: a cell that no set bit lands on. -/
theorem witness_draw_uncovered : ¬SpriteCovers { fresh with index := 0x300 } 0 1 1 0 0 := by
  rintro ⟨i, j, hi, hj, h, _⟩
  have hi' : i = 0 := by simpa using hi
  subst hi'
  have hz : ({ fresh with index := 0x300 } : State).byteAt
      (({ fresh with index := 0x300 } : State).index.toNat + 0) = 0 := by decide
  rw [hz] at h
  simp at h

/-- `DrawIsDeferredOrFaults`: both clauses, the fault at the first range that does not fit. -/
theorem witness_draw_stops :
    ((deferredDraw 0).cfg.quirks.displayWait = true ∧ (deferredDraw 0).displayWaitCounter ≠ 0) ∧
    ¬(fresh.cfg.quirks.displayWait = true ∧ fresh.displayWaitCounter ≠ 0) ∧ 0 < (2 : Imm4).toNat ∧
    4095 < ({ fresh with index := 0xFFF } : State).index.toNat + (2 : Imm4).toNat - 1 := by decide

/-- `DrawingTwiceRestoresTheDisplay`: its hypotheses in their order, and those of its second conclusion. -/
theorem witness_draw_twice : ∃ (s t u w : State), (0 : Reg) ≠ VF ∧ (1 : Reg) ≠ VF ∧ s.drawDeferred = false ∧
    s.index.toNat + (1 : Imm4).toNat ≤ 4096 ∧ exec (.drw 0 1 1) s = .next t ∧ u.display = t.display ∧
    u.reg 0 = t.reg 0 ∧ u.reg 1 = t.reg 1 ∧ u.index = t.index ∧ u.mem = t.mem ∧ u.cfg = t.cfg ∧ u.drawDeferred = false ∧
    exec (.drw 0 1 1) u = .next w ∧ (∀ row col, Display.cell s.display row col = false) ∧
    (∃ row col, SpriteCovers s 0 1 1 row col) :=
  ⟨sprite, _, _, _, by decide, by decide, by decide, by decide, rfl, rfl, rfl, rfl, rfl, rfl, rfl, by decide, rfl,
    by intro row col; simp [Display.cell, sprite, fresh, State.reset],
    ⟨0, 0, 0, 0, by decide, by decide, by decide, by unfold landsOn; decide⟩⟩

/-- `KeySkips`, `KeyWaitTakesTheCurrentKey`: a key that is current and compared, and none. -/
theorem witness_key :
    (∃ k, ({ fresh with keyLastPressed := keyTable [(15, 0)] } : State).currentKey = some k ∧
      k.toNat = ((withRegs fresh [(0, 15)]).reg 0).toNat) ∧
    fresh.currentKey = none := by
  refine ⟨⟨15#4, ?_, ?_⟩, ?_⟩ <;> decide

/-- `PartsAreWrittenOnlyByTheirInstructions`, `RegistersAreWrittenOnlyByTheirInstructions`. -/
theorem witness_frame_rules : nextIs (exec (.addReg 1 2) fresh) (fun _ => true) = true ∧
    mayWritePart (.addReg 1 2) .memory = false ∧ mayWriteReg (.addReg 1 2) fresh 2 = false := by decide

/-- `InputsReachOnlyTheirInstructions`: other samples and another key time with the same current key. -/
theorem witness_inputs : (∀ x nn, Instr.skp 0 ≠ .rnd x nn) ∧
    ({ fresh with inputs := ⟨900, 0xFFFF, 7⟩, keyLastPressed := keyTable [(3, 100)] } : State).currentKey =
      ({ fresh with keyLastPressed := keyTable [(3, 0)] } : State).currentKey ∧
    nextIs (exec (.skp 0) { fresh with keyLastPressed := keyTable [(3, 0)] }) (fun _ => true) = true :=
  ⟨(fun _ _ h => by cases h), by decide, by decide⟩

end Sys2Proof.Tests
end

section
/-! PROOFS. Control flow (41_control_flow): the skips on an immediate and on registers, and the plain jump. -/

namespace Sys2Proof

/-! ### Decoding the control-flow words (30_encoding R74) -/

theorem decodeWord_jp (nnn : Imm12) : decodeWord (wordNNN 0x1#4 nnn) = some (.jp nnn) := by
  simp [decodeWord]

theorem decodeWord_seImm (x : Reg) (nn : Imm8) : decodeWord (wordXNN 0x3#4 x nn) = some (.seImm x nn) := by
  simp [decodeWord]

theorem decodeWord_sneImm (x : Reg) (nn : Imm8) : decodeWord (wordXNN 0x4#4 x nn) = some (.sneImm x nn) := by
  simp [decodeWord]

theorem decodeWord_seReg (x y : Reg) : decodeWord (wordXYN 0x5#4 x y 0#4) = some (.seReg x y) := by
  simp [decodeWord]

theorem decodeWord_sneReg (x y : Reg) : decodeWord (wordXYN 0x9#4 x y 0#4) = some (.sneReg x y) := by
  simp [decodeWord]

end Sys2Proof

namespace Sys2Proof.Machine

section
variable (s : State)

/-! ### The meanings (41_control_flow R112, R114 to R117) -/

theorem exec_jp (nnn : Imm12) : exec (.jp nnn) s = .next (s.setPc (immAddress nnn)) := rfl

theorem exec_seImm (x : Reg) (nn : Imm8) : exec (.seImm x nn) s = .next (s.skipIf (s.reg x == nn)) := rfl

theorem exec_sneImm (x : Reg) (nn : Imm8) : exec (.sneImm x nn) s = .next (s.skipIf (s.reg x != nn)) := rfl

theorem exec_seReg (x y : Reg) : exec (.seReg x y) s = .next (s.skipIf (s.reg x == s.reg y)) := rfl

theorem exec_sneReg (x y : Reg) : exec (.sneReg x y) s = .next (s.skipIf (s.reg x != s.reg y)) := rfl

/-! ### What a write of `PC` and a skip leave unchanged -/

theorem State.onlyChanges_setPc (d : Word) : OnlyChanges [.pc] s (s.setPc d) := by
  intro p hp
  cases p
  case pc => exact absurd (List.mem_singleton_self _) hp
  all_goals simp [Part.same]

theorem State.skipIf_eq_setPc (c : Bool) : s.skipIf c = s.setPc (if c then s.pc + 2 else s.pc) :=
  s.skipIf_eq c

theorem immAddress_toNat (nnn : Imm12) : (immAddress nnn).toNat = nnn.toNat :=
  BitVec.toNat_setWidth_of_le (by decide)

variable {s}

/-- What every conditional skip does, whatever instruction makes it (41_control_flow R110). -/
theorem exists_next_of_exec_skipIf {i : Instr} {c : Bool} (h : exec i s = .next (s.skipIf c)) :
    ∃ t, exec i s = .next t ∧ t.pc = (if c then s.pc + 2 else s.pc) ∧ OnlyChanges [.pc] s t := by
  rw [State.skipIf_eq_setPc] at h
  exact ⟨_, h, rfl, s.onlyChanges_setPc _⟩

/-- A skip taken when two bytes are equal, the bytes compared as numbers. -/
theorem exists_next_of_exec_skipIf_beq {i : Instr} {a b : Byte} (h : exec i s = .next (s.skipIf (a == b))) :
    ∃ t, exec i s = .next t ∧ t.pc = (if a.toNat = b.toNat then s.pc + 2 else s.pc) ∧ OnlyChanges [.pc] s t := by
  simpa only [beq_iff_eq, BitVec.toNat_inj] using exists_next_of_exec_skipIf h

/-- A skip taken when two bytes differ, the bytes compared as numbers. -/
theorem exists_next_of_exec_skipIf_bne {i : Instr} {a b : Byte} (h : exec i s = .next (s.skipIf (a != b))) :
    ∃ t, exec i s = .next t ∧ t.pc = (if a.toNat = b.toNat then s.pc else s.pc + 2) ∧ OnlyChanges [.pc] s t := by
  simpa only [bne_iff_ne, ne_eq, ite_not, BitVec.toNat_inj] using exists_next_of_exec_skipIf h

end

/-! ### The obligations -/

/-- Settles O23: both instructions are a conditional skip on the comparison of `V[X]` with NN. -/
theorem skipsOnImmediate : Obligations.SkipsOnImmediate := by
  intro x nn s
  exact ⟨⟨decodeWord_seImm x nn, exists_next_of_exec_skipIf_beq (exec_seImm s x nn)⟩,
    ⟨decodeWord_sneImm x nn, exists_next_of_exec_skipIf_bne (exec_sneImm s x nn)⟩⟩

/-- Settles O24: both instructions are a conditional skip on the comparison of `V[X]` with `V[Y]`. -/
theorem skipsOnRegisters : Obligations.SkipsOnRegisters := by
  intro x y s
  exact ⟨⟨decodeWord_seReg x y, exists_next_of_exec_skipIf_beq (exec_seReg s x y)⟩,
    ⟨decodeWord_sneReg x y, exists_next_of_exec_skipIf_bne (exec_sneReg s x y)⟩⟩

/-- Settles O25: the target is NNN zero-extended, which is NNN as a number. -/
theorem jumpsToTheImmediate : Obligations.JumpsToTheImmediate := by
  intro nnn s
  exact ⟨decodeWord_jp nnn, _, exec_jp s nnn, immAddress_toNat nnn, s.onlyChanges_setPc _⟩

end Sys2Proof.Machine
end

section
/-! PROOFS. Loads, add immediate and logic (42_alu R130 to R135): one register written, or a logic result. -/

namespace Sys2Proof

/-! ### Decoding the words (30_encoding R74) -/

theorem decodeWord_ldImm (x : Reg) (nn : Imm8) : decodeWord (wordXNN 0x6#4 x nn) = some (.ldImm x nn) := by
  simp [decodeWord]

theorem decodeWord_addImm (x : Reg) (nn : Imm8) : decodeWord (wordXNN 0x7#4 x nn) = some (.addImm x nn) := by
  simp [decodeWord]

theorem decodeWord_ldReg (x y : Reg) : decodeWord (wordXYN 0x8#4 x y 0#4) = some (.ldReg x y) := by
  simp [decodeWord]

theorem decodeWord_orReg (x y : Reg) : decodeWord (wordXYN 0x8#4 x y 1#4) = some (.orReg x y) := by
  simp [decodeWord]

theorem decodeWord_andReg (x y : Reg) : decodeWord (wordXYN 0x8#4 x y 2#4) = some (.andReg x y) := by
  simp [decodeWord]

theorem decodeWord_xorReg (x y : Reg) : decodeWord (wordXYN 0x8#4 x y 3#4) = some (.xorReg x y) := by
  simp [decodeWord]

end Sys2Proof

namespace Sys2Proof.Machine

section
variable (s : State)

/-! ### The meanings (42_alu R130 to R135) -/

theorem exec_ldImm (x : Reg) (nn : Imm8) : exec (.ldImm x nn) s = .next (s.setReg x nn) := rfl

theorem exec_addImm (x : Reg) (nn : Imm8) : exec (.addImm x nn) s = .next (s.setReg x (s.reg x + nn)) := rfl

theorem exec_ldReg (x y : Reg) : exec (.ldReg x y) s = .next (s.setReg x (s.reg y)) := rfl

theorem exec_orReg (x y : Reg) : exec (.orReg x y) s = .next (s.writeLogic x (s.reg x ||| s.reg y)) := rfl

theorem exec_andReg (x y : Reg) : exec (.andReg x y) s = .next (s.writeLogic x (s.reg x &&& s.reg y)) := rfl

theorem exec_xorReg (x y : Reg) : exec (.xorReg x y) s = .next (s.writeLogic x (s.reg x ^^^ s.reg y)) := rfl

/-! ### What a register write and a logic result leave unchanged -/

theorem State.onlyChanges_setReg (x : Reg) (d : Byte) : OnlyChanges [.regs] s (s.setReg x d) :=
  onlyChanges_regs s _

theorem State.regsKeptBut_setReg (x : Reg) (d : Byte) : RegsKeptBut [x] s (s.setReg x d) :=
  fun _ hr => s.reg_setReg_ne (List.ne_of_not_mem_cons hr) d

theorem State.onlyChanges_writeLogic (x : Reg) (r : Byte) : OnlyChanges [.regs] s (s.writeLogic x r) := by
  rw [s.writeLogic_frame]
  exact onlyChanges_regs s _

/-! ### The registers after a logic result (42_alu R133) -/

theorem State.reg_writeLogic_same {x : Reg} (h : s.cfg.quirks.vfReset = false ∨ x ≠ VF) (r : Byte) :
    (s.writeLogic x r).reg x = r := by
  rcases h with h | h <;> simp [State.reg_writeLogic, h]

theorem State.reg_writeLogic_flag (h : s.cfg.quirks.vfReset = true) (x : Reg) (r : Byte) :
    (s.writeLogic x r).reg VF = 0 := by
  simp [State.reg_writeLogic, h]

theorem State.regsKeptBut_writeLogic_of_off (h : s.cfg.quirks.vfReset = false) (x : Reg) (r : Byte) :
    RegsKeptBut [x] s (s.writeLogic x r) := by
  intro y hy
  simp [State.reg_writeLogic, h, List.ne_of_not_mem_cons hy]

theorem State.regsKeptBut_writeLogic (x : Reg) (r : Byte) : RegsKeptBut [x, VF] s (s.writeLogic x r) := by
  intro y hy
  obtain ⟨hx, hf⟩ : y ≠ x ∧ y ≠ VF := by simpa using hy
  simp [State.reg_writeLogic, hx, hf]

variable {s}

/-- What every plain register write does, whatever instruction makes it. -/
theorem exists_next_of_exec_setReg {i : Instr} {x : Reg} {d : Byte} (h : exec i s = .next (s.setReg x d)) :
    ∃ t, exec i s = .next t ∧ t.reg x = d ∧ RegsKeptBut [x] s t ∧ OnlyChanges [.regs] s t :=
  ⟨_, h, s.reg_setReg_same x d, s.regsKeptBut_setReg x d, s.onlyChanges_setReg x d⟩

/-- What every logic instruction does (42_alu R133 to R135), its result given bit by bit. -/
theorem exists_next_of_exec_writeLogic {i : Instr} {x y : Reg} {r : Byte} {op : Bool → Bool → Bool}
    (h : exec i s = .next (s.writeLogic x r))
    (hr : ∀ k < 8, r.getLsbD k = op ((s.reg x).getLsbD k) ((s.reg y).getLsbD k)) :
    ∃ t, exec i s = .next t ∧ OnlyChanges [.regs] s t ∧
      (s.cfg.quirks.vfReset = false →
        (∀ k < 8, (t.reg x).getLsbD k = op ((s.reg x).getLsbD k) ((s.reg y).getLsbD k)) ∧ RegsKeptBut [x] s t) ∧
      (s.cfg.quirks.vfReset = true →
        t.reg VF = 0 ∧ RegsKeptBut [x, VF] s t ∧
        (x ≠ VF → ∀ k < 8, (t.reg x).getLsbD k = op ((s.reg x).getLsbD k) ((s.reg y).getLsbD k))) := by
  refine ⟨_, h, s.onlyChanges_writeLogic x r, fun hoff => ⟨?_, s.regsKeptBut_writeLogic_of_off hoff x r⟩,
    fun hon => ⟨s.reg_writeLogic_flag hon x r, s.regsKeptBut_writeLogic x r, fun hx => ?_⟩⟩
  · rwa [s.reg_writeLogic_same (.inl hoff)]
  · rwa [s.reg_writeLogic_same (.inr hx)]

end

/-! ### The obligations -/

/-- Settles O30: both instructions are a plain register write, of NN and of `V[Y]`. -/
theorem loadsIntoARegister : Obligations.LoadsIntoARegister := by
  intro x y nn s
  exact ⟨⟨decodeWord_ldImm x nn, exists_next_of_exec_setReg (exec_ldImm s x nn)⟩,
    ⟨decodeWord_ldReg x y, exists_next_of_exec_setReg (exec_ldReg s x y)⟩⟩

/-- Settles O31: a plain register write of the 8-bit sum, which is the sum modulo 256. -/
theorem addImmediateWrapsWithoutFlag : Obligations.AddImmediateWrapsWithoutFlag := by
  intro x nn s
  obtain ⟨t, hexec, hsum, hregs, hrest⟩ := exists_next_of_exec_setReg (exec_addImm s x nn)
  exact ⟨decodeWord_addImm x nn, t, hexec, hsum ▸ BitVec.toNat_add _ _, hregs, hrest⟩

/-- Settles O32: each of the three is a logic result whose bits are those of the bitwise operation. -/
theorem logicOperations : Obligations.LogicOperations := by
  intro x y s
  refine ⟨⟨decodeWord_orReg x y, decodeWord_andReg x y, decodeWord_xorReg x y⟩, ?_⟩
  rintro i op (⟨rfl, rfl⟩ | ⟨rfl, rfl⟩ | ⟨rfl, rfl⟩)
  case inl => exact exists_next_of_exec_writeLogic (exec_orReg s x y) fun _ _ => BitVec.getLsbD_or
  case inr.inl => exact exists_next_of_exec_writeLogic (exec_andReg s x y) fun _ _ => BitVec.getLsbD_and
  case inr.inr => exact exists_next_of_exec_writeLogic (exec_xorReg s x y) fun _ _ => BitVec.getLsbD_xor

end Sys2Proof.Machine
end

section
/-! PROOFS. The index register (43_index_memory): loading it with an immediate. -/

namespace Sys2Proof

/-! ### Decoding the word (30_encoding R74) -/

theorem decodeWord_ldIndex (nnn : Imm12) : decodeWord (wordNNN 0xA#4 nnn) = some (.ldIndex nnn) := by
  simp [decodeWord]

end Sys2Proof

namespace Sys2Proof.Machine

section
variable (s : State)

/-! ### The meaning (43_index_memory R150) and what a write of `I` leaves unchanged -/

theorem exec_ldIndex (nnn : Imm12) : exec (.ldIndex nnn) s = .next (s.setIndex (immAddress nnn)) := rfl

theorem State.onlyChanges_setIndex (d : Word) : OnlyChanges [.index] s (s.setIndex d) := by
  intro p hp
  cases p
  case index => exact absurd (List.mem_singleton_self _) hp
  all_goals simp [Part.same]

end

/-! ### The obligation -/

/-- Settles O38: `I` takes NNN zero-extended, which is NNN as a number. -/
theorem indexTakesTheImmediate : Obligations.IndexTakesTheImmediate := by
  intro nnn s
  exact ⟨decodeWord_ldIndex nnn, _, exec_ldIndex s nnn, immAddress_toNat nnn, s.onlyChanges_setIndex _⟩

end Sys2Proof.Machine
end

section
/-! PROOFS. Key and timer instructions (45_keys_timers): the key skips, the wait for a key, the moves to and from the
timers. -/

namespace Sys2Proof

/-! ### Decoding the words (30_encoding R74) -/

theorem decodeWord_skp (x : Reg) : decodeWord (wordXNN 0xE#4 x 0x9E#8) = some (.skp x) := by
  simp [decodeWord]

theorem decodeWord_sknp (x : Reg) : decodeWord (wordXNN 0xE#4 x 0xA1#8) = some (.sknp x) := by
  simp [decodeWord]

theorem decodeWord_ldKey (x : Reg) : decodeWord (wordXNN 0xF#4 x 0x0A#8) = some (.ldKey x) := by
  simp [decodeWord]

theorem decodeWord_ldFromDelay (x : Reg) : decodeWord (wordXNN 0xF#4 x 0x07#8) = some (.ldFromDelay x) := by
  simp [decodeWord]

theorem decodeWord_ldDelay (x : Reg) : decodeWord (wordXNN 0xF#4 x 0x15#8) = some (.ldDelay x) := by
  simp [decodeWord]

theorem decodeWord_ldSound (x : Reg) : decodeWord (wordXNN 0xF#4 x 0x18#8) = some (.ldSound x) := by
  simp [decodeWord]

end Sys2Proof

namespace Sys2Proof.Machine

theorem zext8_toNat (k : BitVec 4) : (zext8 k).toNat = k.toNat :=
  BitVec.toNat_setWidth_of_le (by decide)

section
variable (s : State)

/-! ### The key test (60_exceptions R231) -/

/-- The whole byte is compared: a key above 15 is never pressed. -/
theorem State.isPressed_iff (key : Byte) :
    s.isPressed key = true ↔ ∃ k, s.currentKey = some k ∧ k.toNat = key.toNat := by
  unfold State.isPressed
  cases s.currentKey with
  | none => simp
  | some k =>
    rw [beq_iff_eq, ← BitVec.toNat_inj, zext8_toNat]
    simp

/-! ### The meanings (45_keys_timers R190 to R195) -/

theorem exec_skp (x : Reg) : exec (.skp x) s = .next (s.skipIf (s.isPressed (s.reg x))) := rfl

theorem exec_sknp (x : Reg) : exec (.sknp x) s = .next (s.skipIf (!s.isPressed (s.reg x))) := rfl

theorem exec_ldKey_of_some {k : BitVec 4} (h : s.currentKey = some k) (x : Reg) :
    exec (.ldKey x) s = .next (s.setReg x (zext8 k)) := by
  simp [exec, execLdKey, h]

theorem exec_ldKey_of_none (h : s.currentKey = none) (x : Reg) :
    exec (.ldKey x) s = .next (s.setPc (s.pc - 2)) := by
  simp [exec, execLdKey, h, State.retry]

theorem exec_ldFromDelay (x : Reg) : exec (.ldFromDelay x) s = .next (s.setReg x s.delayTimer) := rfl

theorem exec_ldDelay (x : Reg) : exec (.ldDelay x) s = .next (s.setDelayTimer (s.reg x)) := rfl

theorem exec_ldSound (x : Reg) : exec (.ldSound x) s = .next (s.setSoundTimer (s.reg x)) := rfl

/-! ### What a write of a timer leaves unchanged -/

@[simp] theorem State.reg_setDelayTimer (d : Byte) (y : Reg) : (s.setDelayTimer d).reg y = s.reg y := rfl
@[simp] theorem State.reg_setSoundTimer (d : Byte) (y : Reg) : (s.setSoundTimer d).reg y = s.reg y := rfl
@[simp] theorem State.byteAt_setDelayTimer (d : Byte) (a : Nat) : (s.setDelayTimer d).byteAt a = s.byteAt a := rfl
@[simp] theorem State.byteAt_setSoundTimer (d : Byte) (a : Nat) : (s.setSoundTimer d).byteAt a = s.byteAt a := rfl

theorem State.onlyChanges_setDelayTimer (d : Byte) : OnlyChanges [.delayTimer] s (s.setDelayTimer d) := by
  intro p hp
  cases p
  case delayTimer => exact absurd (List.mem_singleton_self _) hp
  all_goals simp [Part.same]

theorem State.onlyChanges_setSoundTimer (d : Byte) : OnlyChanges [.soundTimer] s (s.setSoundTimer d) := by
  intro p hp
  cases p
  case soundTimer => exact absurd (List.mem_singleton_self _) hp
  all_goals simp [Part.same]

end

/-! ### The obligations -/

/-- Settles O50: the two skips test one condition and its negation, which is the key test on the whole byte. -/
theorem keySkips : Obligations.KeySkips := by
  intro x s
  obtain ⟨t, ht, htpc, htrest⟩ := exists_next_of_exec_skipIf (exec_skp s x)
  obtain ⟨u, hu, hupc, hurest⟩ := exists_next_of_exec_skipIf (exec_sknp s x)
  refine ⟨⟨decodeWord_skp x, decodeWord_sknp x⟩, t, u, ht, hu, htrest, hurest, fun hkey => ?_, fun hkey => ?_⟩
  · have hpressed := (s.isPressed_iff (s.reg x)).mpr hkey
    simp [htpc, hupc, hpressed]
  · have hreleased := mt (s.isPressed_iff (s.reg x)).mp hkey
    simp [htpc, hupc, hreleased]

/-- Settles O51: a plain register write of the current key, or a write of `PC` alone when there is none. -/
theorem keyWaitTakesTheCurrentKey : Obligations.KeyWaitTakesTheCurrentKey := by
  intro x s
  refine ⟨decodeWord_ldKey x, fun k hkey => ?_, fun hnone => ?_⟩
  · obtain ⟨t, hexec, hreg, hregs, hrest⟩ := exists_next_of_exec_setReg (exec_ldKey_of_some s hkey x)
    exact ⟨t, hexec, hreg ▸ zext8_toNat k, hregs, hrest⟩
  · exact ⟨_, exec_ldKey_of_none s hnone x, rfl, s.onlyChanges_setPc _⟩

/-- Settles O52: a plain register write of the delay timer, and a write of each timer alone. -/
theorem timerRegisterMoves : Obligations.TimerRegisterMoves := by
  intro x s
  exact ⟨⟨decodeWord_ldFromDelay x, exists_next_of_exec_setReg (exec_ldFromDelay s x)⟩,
    ⟨decodeWord_ldDelay x, _, exec_ldDelay s x, rfl, s.onlyChanges_setDelayTimer _⟩,
    ⟨decodeWord_ldSound x, _, exec_ldSound s x, rfl, s.onlyChanges_setSoundTimer _⟩⟩

end Sys2Proof.Machine
end

section
/-! PROOFS. Exceptions and the closing phases (60_exceptions): the input phase. -/

namespace Sys2Proof.Machine

/-- Settles O18: an executed cycle ends with the closing phases, and of these only the input phase writes the key times. -/
theorem inputPhaseStampsKeysDown : Obligations.InputPhaseStampsKeysDown := by
  intro s t u hcycle k
  rw [hcycle.eq_endCycle]
  exact t.endCycle_keys k

end Sys2Proof.Machine
end

section
/-! PROOFS. The decoder and the encoder (30_encoding): each inverts the other, and the decoder is the opcode map. -/

namespace Sys2Proof

/-! ### Decoding the words of the other rows (30_encoding R74) -/

theorem decodeWord_cls : decodeWord 0x00E0#16 = some .cls := rfl

theorem decodeWord_ret : decodeWord 0x00EE#16 = some .ret := rfl

theorem decodeWord_call (nnn : Imm12) : decodeWord (wordNNN 0x2#4 nnn) = some (.call nnn) := by
  simp [decodeWord]

theorem decodeWord_addReg (x y : Reg) : decodeWord (wordXYN 0x8#4 x y 4#4) = some (.addReg x y) := by
  simp [decodeWord]

theorem decodeWord_subReg (x y : Reg) : decodeWord (wordXYN 0x8#4 x y 5#4) = some (.subReg x y) := by
  simp [decodeWord]

theorem decodeWord_subnReg (x y : Reg) : decodeWord (wordXYN 0x8#4 x y 7#4) = some (.subnReg x y) := by
  simp [decodeWord]

theorem decodeWord_shrReg (x y : Reg) : decodeWord (wordXYN 0x8#4 x y 6#4) = some (.shrReg x y) := by
  simp [decodeWord]

theorem decodeWord_shlReg (x y : Reg) : decodeWord (wordXYN 0x8#4 x y 0xE#4) = some (.shlReg x y) := by
  simp [decodeWord]

theorem decodeWord_jpV0 (nnn : Imm12) :
    decodeWord (wordNNN 0xB#4 nnn) = some (.jpV0 (nnn.extractLsb' 8 4) nnn) := by
  simp [decodeWord]

theorem decodeWord_rnd (x : Reg) (nn : Imm8) : decodeWord (wordXNN 0xC#4 x nn) = some (.rnd x nn) := by
  simp [decodeWord]

theorem decodeWord_drw (x y : Reg) (n : Imm4) : decodeWord (wordXYN 0xD#4 x y n) = some (.drw x y n) := by
  simp [decodeWord]

theorem decodeWord_addIndex (x : Reg) : decodeWord (wordXNN 0xF#4 x 0x1E#8) = some (.addIndex x) := by
  simp [decodeWord]

theorem decodeWord_ldFont (x : Reg) : decodeWord (wordXNN 0xF#4 x 0x29#8) = some (.ldFont x) := by
  simp [decodeWord]

theorem decodeWord_ldBcd (x : Reg) : decodeWord (wordXNN 0xF#4 x 0x33#8) = some (.ldBcd x) := by
  simp [decodeWord]

theorem decodeWord_storeRegs (x : Reg) : decodeWord (wordXNN 0xF#4 x 0x55#8) = some (.storeRegs x) := by
  simp [decodeWord]

theorem decodeWord_loadRegs (x : Reg) : decodeWord (wordXNN 0xF#4 x 0x65#8) = some (.loadRegs x) := by
  simp [decodeWord]

/-! ### The decoder inverts the encoder (30_encoding R71 to R74) -/

/-- Row by row of the opcode map; only `BNNN` needs its operands to agree. -/
theorem decodeWord_encode {i : Instr} (h : i.wf = true) : decodeWord (encode i) = some i := by
  cases i with
  | cls => exact decodeWord_cls
  | ret => exact decodeWord_ret
  | jp nnn => exact decodeWord_jp nnn
  | call nnn => exact decodeWord_call nnn
  | seImm x nn => exact decodeWord_seImm x nn
  | sneImm x nn => exact decodeWord_sneImm x nn
  | seReg x y => exact decodeWord_seReg x y
  | ldImm x nn => exact decodeWord_ldImm x nn
  | addImm x nn => exact decodeWord_addImm x nn
  | ldReg x y => exact decodeWord_ldReg x y
  | orReg x y => exact decodeWord_orReg x y
  | andReg x y => exact decodeWord_andReg x y
  | xorReg x y => exact decodeWord_xorReg x y
  | addReg x y => exact decodeWord_addReg x y
  | subReg x y => exact decodeWord_subReg x y
  | subnReg x y => exact decodeWord_subnReg x y
  | shrReg x y => exact decodeWord_shrReg x y
  | shlReg x y => exact decodeWord_shlReg x y
  | sneReg x y => exact decodeWord_sneReg x y
  | ldIndex nnn => exact decodeWord_ldIndex nnn
  | jpV0 x nnn =>
    obtain rfl : x = nnn.extractLsb' 8 4 := beq_iff_eq.mp h
    exact decodeWord_jpV0 nnn
  | rnd x nn => exact decodeWord_rnd x nn
  | drw x y n => exact decodeWord_drw x y n
  | skp x => exact decodeWord_skp x
  | sknp x => exact decodeWord_sknp x
  | ldFromDelay x => exact decodeWord_ldFromDelay x
  | ldDelay x => exact decodeWord_ldDelay x
  | ldSound x => exact decodeWord_ldSound x
  | addIndex x => exact decodeWord_addIndex x
  | ldKey x => exact decodeWord_ldKey x
  | ldFont x => exact decodeWord_ldFont x
  | ldBcd x => exact decodeWord_ldBcd x
  | storeRegs x => exact decodeWord_storeRegs x
  | loadRegs x => exact decodeWord_loadRegs x

/-! ### The encoder inverts the decoder (30_encoding R73, D8) -/

section
variable {w : Word} {f : BitVec 4}

theorem wordNNN_of_family (h : fieldFamily w = f) : wordNNN f (fieldNNN w) = w := by
  rw [← h, wordNNN_fields]

theorem wordXNN_of_family (h : fieldFamily w = f) : wordXNN f (fieldX w) (fieldNN w) = w := by
  rw [← h, wordXNN_fields]

theorem wordXYN_of_family (h : fieldFamily w = f) : wordXYN f (fieldX w) (fieldY w) (fieldN w) = w := by
  rw [← h, wordXYN_fields]

theorem wordXNN_of_fields {nn : Imm8} (h : fieldFamily w = f) (hnn : fieldNN w = nn) :
    wordXNN f (fieldX w) nn = w := by
  rw [← hnn, wordXNN_of_family h]

theorem wordXYN_of_fields {n : Imm4} (h : fieldFamily w = f) (hn : fieldN w = n) :
    wordXYN f (fieldX w) (fieldY w) n = w := by
  rw [← hn, wordXYN_of_family h]

end

/-- Family by family of the decoder: every word is its family and the fields its format names. -/
theorem wf_and_encode_of_decodeWord {w : Word} {i : Instr} (h : decodeWord w = some i) :
    i.wf = true ∧ encode i = w := by
  unfold decodeWord at h
  split at h
  case h_1 =>
    split_ifs at h with hcls hret <;> cases h
    · exact ⟨rfl, hcls.symm⟩
    · exact ⟨rfl, hret.symm⟩
  case h_2 hf | h_3 hf | h_11 hf =>
    cases h
    exact ⟨rfl, wordNNN_of_family hf⟩
  case h_12 hf =>
    cases h
    exact ⟨beq_iff_eq.mpr (fieldX_eq_fieldNNN w), wordNNN_of_family hf⟩
  case h_4 hf | h_5 hf | h_7 hf | h_8 hf | h_13 hf =>
    cases h
    exact ⟨rfl, wordXNN_of_family hf⟩
  case h_6 hf | h_10 hf =>
    split_ifs at h with hn
    cases h
    exact ⟨rfl, wordXYN_of_fields hf hn⟩
  case h_9 hf =>
    split at h <;> cases h <;> exact ⟨rfl, wordXYN_of_fields hf ‹_›⟩
  case h_14 hf =>
    cases h
    exact ⟨rfl, wordXYN_of_family hf⟩
  case h_15 hf | h_16 hf =>
    split at h <;> cases h <;> exact ⟨rfl, wordXNN_of_fields hf ‹_›⟩
  case h_17 => cases h

/-! ### Lists of bytes (20_memory R51) -/

theorem decode_cons_cons_of_some {hi lo : Byte} {i : Instr} (h : decodeWord (wordOfBytes hi lo) = some i)
    (rest : List Byte) : decode (hi :: lo :: rest) = .ok (i, rest) := by
  simp [decode, h]

theorem decode_cons_cons_eq_ok_iff {hi lo : Byte} {rest rest' : List Byte} {i : Instr} :
    decode (hi :: lo :: rest) = .ok (i, rest') ↔ decodeWord (wordOfBytes hi lo) = some i ∧ rest' = rest := by
  cases h : decodeWord (wordOfBytes hi lo) with
  | none => simp [decode, h]
  | some j => simp [decode, h, eq_comm]

/-! ### The opcode map (30_encoding R74, R75) -/

theorem Instr.row_mem_opcodeMap (i : Instr) : i.row ∈ opcodeMap := by
  cases i <;> simp [opcodeMap, mapInstrsLow, mapInstrsHigh, Instr.row]

theorem Instr.row_selects_encode (i : Instr) : i.row.selects (encode i) = true := by
  cases i with
  | cls => exact Laws.RowMatch.cls
  | ret => exact Laws.RowMatch.ret
  | jp nnn => exact Laws.RowMatch.jp nnn
  | call nnn => exact Laws.RowMatch.call nnn
  | seImm x nn => exact Laws.RowMatch.seImm x nn
  | sneImm x nn => exact Laws.RowMatch.sneImm x nn
  | seReg x y => exact Laws.RowMatch.seReg x y
  | ldImm x nn => exact Laws.RowMatch.ldImm x nn
  | addImm x nn => exact Laws.RowMatch.addImm x nn
  | ldReg x y => exact Laws.RowMatch.ldReg x y
  | orReg x y => exact Laws.RowMatch.orReg x y
  | andReg x y => exact Laws.RowMatch.andReg x y
  | xorReg x y => exact Laws.RowMatch.xorReg x y
  | addReg x y => exact Laws.RowMatch.addReg x y
  | subReg x y => exact Laws.RowMatch.subReg x y
  | subnReg x y => exact Laws.RowMatch.subnReg x y
  | shrReg x y => exact Laws.RowMatch.shrReg x y
  | shlReg x y => exact Laws.RowMatch.shlReg x y
  | sneReg x y => exact Laws.RowMatch.sneReg x y
  | ldIndex nnn => exact Laws.RowMatch.ldIndex nnn
  | jpV0 x nnn => exact Laws.RowMatch.jpV0 x nnn
  | rnd x nn => exact Laws.RowMatch.rnd x nn
  | drw x y n => exact Laws.RowMatch.drw x y n
  | skp x => exact Laws.RowMatch.skp x
  | sknp x => exact Laws.RowMatch.sknp x
  | ldFromDelay x => exact Laws.RowMatch.ldFromDelay x
  | ldDelay x => exact Laws.RowMatch.ldDelay x
  | ldSound x => exact Laws.RowMatch.ldSound x
  | addIndex x => exact Laws.RowMatch.addIndex x
  | ldKey x => exact Laws.RowMatch.ldKey x
  | ldFont x => exact Laws.RowMatch.ldFont x
  | ldBcd x => exact Laws.RowMatch.ldBcd x
  | storeRegs x => exact Laws.RowMatch.storeRegs x
  | loadRegs x => exact Laws.RowMatch.loadRegs x

theorem OpcodeRow.selects_iff {r : OpcodeRow} {w : Word} : r.selects w = true ↔ w &&& r.mask = r.bits :=
  beq_iff_eq

section
variable {w : Word}

/-- The mask of formats NNN, XNN and XYN keeps the family. -/
theorem fieldFamily_of_mask {b : Word} (h : w &&& 0xF000#16 = b) : fieldFamily w = fieldFamily b := by
  rw [← wordNNN_fields w, wordNNN_mask] at h
  simp [← h]

/-- The mask of format XY keeps the family and the low nibble. -/
theorem fields_of_mask_low {b : Word} (h : w &&& 0xF00F#16 = b) :
    fieldFamily w = fieldFamily b ∧ fieldN w = fieldN b := by
  rw [← wordXYN_fields w, wordXYN_mask_low] at h
  simp [← h]

/-- The mask of format X keeps the family and the low byte. -/
theorem fields_of_mask_low_byte {b : Word} (h : w &&& 0xF0FF#16 = b) :
    fieldFamily w = fieldFamily b ∧ fieldNN w = fieldNN b := by
  rw [← wordXNN_fields w, wordXNN_mask_low] at h
  simp [← h]

end

/-- A word that selects an instruction's row decodes to an instruction of that row: the row's mask keeps the fixed fields
the decoder tests. -/
theorem map_row_decodeWord_of_selects {w : Word} {i : Instr} (h : i.row.selects w = true) :
    (decodeWord w).map Instr.row = some i.row := by
  rw [OpcodeRow.selects_iff] at h
  cases i with
  | cls | ret =>
    have hw : w = _ := (BitVec.and_allOnes (x := w)).symm.trans h
    subst hw
    rfl
  | jp | call | seImm | sneImm | ldImm | addImm | ldIndex | jpV0 | rnd | drw =>
    simp only [Instr.row] at h
    rw [decodeWord, fieldFamily_of_mask h]
    rfl
  | seReg | ldReg | orReg | andReg | xorReg | addReg | subReg | subnReg | shrReg | shlReg | sneReg =>
    simp only [Instr.row] at h
    obtain ⟨hf, hn⟩ := fields_of_mask_low h
    rw [decodeWord, hf, hn]
    rfl
  | skp | sknp | ldFromDelay | ldDelay | ldSound | addIndex | ldKey | ldFont | ldBcd | storeRegs | loadRegs =>
    simp only [Instr.row] at h
    obtain ⟨hf, hnn⟩ := fields_of_mask_low_byte h
    rw [decodeWord, hf, hnn]
    rfl

/-- Each row of the opcode map is the row of an instruction. -/
theorem exists_row_eq_of_mem_opcodeMap {r : OpcodeRow} (h : r ∈ opcodeMap) : ∃ i : Instr, i.row = r := by
  obtain ⟨i, -, hi⟩ := List.mem_map.mp h
  exact ⟨i, hi⟩

/-- A word selects a row of the opcode map exactly when it decodes to an instruction of that row. -/
theorem selects_iff_of_mem_opcodeMap {r : OpcodeRow} (hr : r ∈ opcodeMap) (w : Word) :
    r.selects w = true ↔ ∃ i, decodeWord w = some i ∧ i.row = r := by
  constructor
  · obtain ⟨i, rfl⟩ := exists_row_eq_of_mem_opcodeMap hr
    exact fun h => Option.map_eq_some_iff.mp (map_row_decodeWord_of_selects h)
  · rintro ⟨i, hi, rfl⟩
    rw [← (wf_and_encode_of_decodeWord hi).2]
    exact i.row_selects_encode

theorem decodeWord_eq_none_iff (w : Word) : decodeWord w = none ↔ ∀ r ∈ opcodeMap, r.selects w = false := by
  simp only [Option.eq_none_iff_forall_ne_some, ← Bool.not_eq_true]
  constructor
  · intro h r hr hsel
    obtain ⟨i, hi, -⟩ := (selects_iff_of_mem_opcodeMap hr w).mp hsel
    exact h i hi
  · intro h i hi
    exact h i.row i.row_mem_opcodeMap ((selects_iff_of_mem_opcodeMap i.row_mem_opcodeMap w).mpr ⟨i, hi, rfl⟩)

/-! ### The obligations -/

/-- Settles O1: the two bytes of a word make the word again, and the decoder inverts the encoder. -/
theorem decodeOfEncodeIsTheInstruction : Obligations.DecodeOfEncodeIsTheInstruction := by
  intro i rest hwf
  have hword := (congrArg decodeWord (wordOfBytes_bytesOfWord (encode i))).trans (decodeWord_encode hwf)
  exact decode_cons_cons_of_some hword rest

/-- Settles O2: the encoder inverts the decoder, and the decoder hands back the rest of the bytes. -/
theorem decodedBytesAreTheEncoding : Obligations.DecodedBytesAreTheEncoding := by
  intro hi lo rest rest' i h
  obtain ⟨hword, hrest⟩ := decode_cons_cons_eq_ok_iff.mp h
  obtain ⟨hwf, henc⟩ := wf_and_encode_of_decodeWord hword
  exact ⟨hwf, henc, hrest⟩

/-- Settles O3: a word selects a row exactly when it decodes to an instruction of it, and it decodes to one at most. -/
theorem decoderAgreesWithTheOpcodeMap : Obligations.DecoderAgreesWithTheOpcodeMap := by
  refine ⟨decodeWord_eq_none_iff, fun w i hi => ?_, fun w r hr r' hr' hsel hsel' => ?_⟩
  · exact ⟨i.row_mem_opcodeMap, (selects_iff_of_mem_opcodeMap i.row_mem_opcodeMap w).mpr ⟨i, hi, rfl⟩⟩
  · obtain ⟨i, hi, rfl⟩ := (selects_iff_of_mem_opcodeMap hr w).mp hsel
    obtain ⟨j, hj, rfl⟩ := (selects_iff_of_mem_opcodeMap hr' w).mp hsel'
    rw [Option.some.inj (hi.symm.trans hj)]

/-- Settles O4: each word written out is decoded. -/
theorem sampleWordsDecode : Obligations.SampleWordsDecode := by
  unfold Obligations.SampleWordsDecode
  decide

end Sys2Proof
end

section
/-! PROOFS. Who writes what (10_state R20, R22, R23): the frame of each shared operation, and of each instruction. -/

namespace Sys2Proof.Machine

section
variable (s : State)

/-! ### The remaining meanings (41_control_flow, 42_alu, 43_index_memory, 44_display) -/

theorem exec_cls : exec .cls s = .next ((s.setDisplay (Vector.replicate 32 0)).markDirty) := rfl

theorem exec_ret : exec .ret s = .next (s.dropTop.setPc s.popped) := rfl

theorem exec_call (nnn : Imm12) : exec (.call nnn) s = .next ((s.push s.pc).setPc (immAddress nnn)) := rfl

theorem exec_jpV0 (x : Reg) (nnn : Imm12) : exec (.jpV0 x nnn) s = .next (s.setPc (s.jumpTarget x nnn)) := rfl

theorem exec_addReg (x y : Reg) : exec (.addReg x y) s =
    .next (s.writeResultFlag x (s.reg x + s.reg y) (carryFlag (s.reg x) (s.reg y))) := rfl

theorem exec_subReg (x y : Reg) : exec (.subReg x y) s =
    .next (s.writeResultFlag x (s.reg x - s.reg y) (notBorrowFlag (s.reg x) (s.reg y))) := rfl

theorem exec_subnReg (x y : Reg) : exec (.subnReg x y) s =
    .next (s.writeResultFlag x (s.reg y - s.reg x) (notBorrowFlag (s.reg y) (s.reg x))) := rfl

theorem exec_shrReg (x y : Reg) : exec (.shrReg x y) s =
    .next (s.writeResultFlag x (s.shiftSource x y >>> 1) (shiftRightFlag (s.shiftSource x y))) := rfl

theorem exec_shlReg (x y : Reg) : exec (.shlReg x y) s =
    .next (s.writeResultFlag x (s.shiftSource x y <<< 1) (shiftLeftFlag (s.shiftSource x y))) := rfl

theorem exec_rnd (x : Reg) (nn : Imm8) : exec (.rnd x nn) s = .next (s.setReg x (s.inputs.rand &&& nn)) := rfl

theorem exec_addIndex (x : Reg) : exec (.addIndex x) s = .next (s.setIndex (s.index + zext16 (s.reg x))) := rfl

theorem exec_ldFont (x : Reg) : exec (.ldFont x) s = .next (s.setIndex (glyphAddress (s.reg x))) := rfl

theorem exec_ldBcd (x : Reg) : exec (.ldBcd x) s =
    .next (s.checked s.index.toNat 3 (s.writeBytes s.index.toNat (decimalDigits (s.reg x)))) := rfl

theorem exec_storeRegs (x : Reg) : exec (.storeRegs x) s =
    .next (s.checked s.index.toNat (x.toNat + 1)
      ((s.writeBytes s.index.toNat (s.firstRegs (x.toNat + 1))).bumpIndex x)) := rfl

theorem exec_loadRegs (x : Reg) : exec (.loadRegs x) s =
    .next (s.checked s.index.toNat (x.toNat + 1) ((s.loadFirstRegs s.index.toNat (x.toNat + 1)).bumpIndex x)) := rfl

theorem exec_drw_of_deferred (h : s.drawDeferred = true) (x y : Reg) (n : Imm4) :
    exec (.drw x y n) s = .next (s.setPc (s.pc - 2)) := by
  simp [exec, execDrw, h]

theorem exec_drw_of_ready (h : s.drawDeferred = false) (x y : Reg) (n : Imm4) :
    exec (.drw x y n) s = .next (s.checked s.index.toNat n.toNat (s.drawSprite x y n)) := by
  simp [exec, execDrw, h]

/-! ### What each shared operation leaves unchanged -/

theorem OnlyChanges.mono {ps qs : List Part} {s t : State} (h : OnlyChanges ps s t) (hsub : ps ⊆ qs) :
    OnlyChanges qs s t :=
  fun p hp => h p fun hmem => hp (hsub hmem)

theorem State.onlyChanges_raiseAddressRangeFault (a : FaultAddr) :
    OnlyChanges [.fault] s (s.raiseAddressRangeFault a) := by
  intro p hp
  cases p
  case fault => exact absurd (List.mem_singleton_self _) hp
  all_goals simp [Part.same, State.byteAt]

theorem State.onlyChanges_reportUnknown (w : Word) : OnlyChanges [.unknown] s (s.reportUnknown w) := by
  intro p hp
  cases p
  case unknown => exact absurd (List.mem_singleton_self _) hp
  all_goals simp [Part.same, State.byteAt, State.reg]

theorem State.onlyChanges_reportStackOverflow : OnlyChanges [.stackOverflow] s s.reportStackOverflow := by
  intro p hp
  cases p
  case stackOverflow => exact absurd (List.mem_singleton_self _) hp
  all_goals simp [Part.same, State.byteAt, State.reg]

theorem State.onlyChanges_reportStackUnderflow : OnlyChanges [.stackUnderflow] s s.reportStackUnderflow := by
  intro p hp
  cases p
  case stackUnderflow => exact absurd (List.mem_singleton_self _) hp
  all_goals simp [Part.same, State.byteAt, State.reg]

/-- A write of the stack and its pointer. -/
theorem onlyChanges_stack (stack : Vector Word 16) (sp : Fin 17) :
    OnlyChanges [.stack] s { s with stack := stack, sp := sp } := by
  intro p hp
  cases p
  case stack => exact absurd (List.mem_singleton_self _) hp
  all_goals simp [Part.same, State.byteAt, State.reg]

theorem State.onlyChanges_writeBytes (a : Nat) (ds : List Byte) : OnlyChanges [.memory] s (s.writeBytes a ds) := by
  intro p hp
  cases p
  case memory => exact absurd (List.mem_singleton_self _) hp
  all_goals simp [Part.same]

theorem State.onlyChanges_setDisplay (d : Display) : OnlyChanges [.display] s (s.setDisplay d) := by
  intro p hp
  cases p
  case display => exact absurd (List.mem_singleton_self _) hp
  all_goals simp [Part.same, State.byteAt]

theorem State.onlyChanges_markDirty : OnlyChanges [.displayDirty] s s.markDirty := by
  intro p hp
  cases p
  case displayDirty => exact absurd (List.mem_singleton_self _) hp
  all_goals simp [Part.same, State.byteAt]

theorem State.onlyChanges_setWaitCounter (d : BitVec 8) : OnlyChanges [.waitCounter] s (s.setWaitCounter d) := by
  intro p hp
  cases p
  case waitCounter => exact absurd (List.mem_singleton_self _) hp
  all_goals simp [Part.same]

theorem State.onlyChanges_skipIf (c : Bool) : OnlyChanges [.pc] s (s.skipIf c) := by
  rw [State.skipIf_eq_setPc]
  exact s.onlyChanges_setPc _

theorem State.onlyChanges_writeResultFlag (x : Reg) (r f : Byte) :
    OnlyChanges [.regs] s (s.writeResultFlag x r f) :=
  onlyChanges_regs s _

theorem State.onlyChanges_loadFirstRegs (base k : Nat) : OnlyChanges [.regs] s (s.loadFirstRegs base k) := by
  rw [s.loadFirstRegs_frame]
  exact onlyChanges_regs s _

theorem State.onlyChanges_bumpIndex (x : Reg) : OnlyChanges [.index] s (s.bumpIndex x) := by
  rw [s.bumpIndex_frame]
  exact s.onlyChanges_setIndex _

theorem State.onlyChanges_countDraw : OnlyChanges [.waitCounter] s s.countDraw := by
  rw [s.countDraw_frame]
  exact s.onlyChanges_setWaitCounter _

theorem State.onlyChanges_drawSprite (x y : Reg) (n : Imm4) :
    OnlyChanges [.regs, .display, .displayDirty, .waitCounter] s (s.drawSprite x y n) :=
  (((s.onlyChanges_setReg VF _).trans (State.onlyChanges_setDisplay _ _)).trans
    (State.onlyChanges_markDirty _)).trans (State.onlyChanges_countDraw _)

/-- A push changes the stack, or reports that it is full (10_state R27). -/
theorem State.onlyChanges_push (d : Word) : OnlyChanges [.stack, .stackOverflow] s (s.push d) := by
  by_cases h : s.sp.val < 16
  · rw [s.push_room h]
    exact (onlyChanges_stack s _ _).mono (by simp)
  · rw [s.push_full (by omega)]
    exact s.onlyChanges_reportStackOverflow.mono (by simp)

/-- A pop changes the stack, or reports that it is empty (10_state R28). -/
theorem State.onlyChanges_dropTop : OnlyChanges [.stack, .stackUnderflow] s s.dropTop := by
  by_cases h : 0 < s.sp.val
  · rw [s.dropTop_some h]
    exact (onlyChanges_stack s _ _).mono (by simp)
  · rw [s.dropTop_empty (by omega)]
    exact s.onlyChanges_reportStackUnderflow.mono (by simp)

/-- A checked range changes what its body changes, or the fault (20_memory R55). -/
theorem State.onlyChanges_checked {ps : List Part} {body : State} (h : OnlyChanges ps s body) (base len : Nat) :
    OnlyChanges (.fault :: ps) s (s.checked base len body) := by
  rcases s.checked_cases base len body with ⟨hbody, -⟩ | ⟨hfault, -⟩
  · rw [hbody]
    exact h.mono (List.subset_cons_self _ _)
  · rw [hfault]
    exact (s.onlyChanges_raiseAddressRangeFault _).mono (by simp)

end

/-! ### What each instruction leaves unchanged (10_state R20) -/

/-- The parts an instruction writes, as the list its operations have. -/
theorem exec_frame (i : Instr) (s : State) :
    ∃ u ps, exec i s = .next u ∧ OnlyChanges ps s u ∧ ∀ p ∈ ps, mayWritePart i p = true := by
  cases i with
  | cls =>
    exact ⟨_, _, exec_cls s, (s.onlyChanges_setDisplay _).trans (State.onlyChanges_markDirty _),
      by simp [mayWritePart]⟩
  | ret =>
    exact ⟨_, _, exec_ret s, s.onlyChanges_dropTop.trans (State.onlyChanges_setPc _ _), by simp [mayWritePart]⟩
  | call nnn =>
    exact ⟨_, _, exec_call s nnn, (s.onlyChanges_push _).trans (State.onlyChanges_setPc _ _), by simp [mayWritePart]⟩
  | jp nnn => exact ⟨_, _, exec_jp s nnn, s.onlyChanges_setPc _, by simp [mayWritePart]⟩
  | jpV0 x nnn => exact ⟨_, _, exec_jpV0 s x nnn, s.onlyChanges_setPc _, by simp [mayWritePart]⟩
  | seImm x nn => exact ⟨_, _, exec_seImm s x nn, s.onlyChanges_skipIf _, by simp [mayWritePart]⟩
  | sneImm x nn => exact ⟨_, _, exec_sneImm s x nn, s.onlyChanges_skipIf _, by simp [mayWritePart]⟩
  | seReg x y => exact ⟨_, _, exec_seReg s x y, s.onlyChanges_skipIf _, by simp [mayWritePart]⟩
  | sneReg x y => exact ⟨_, _, exec_sneReg s x y, s.onlyChanges_skipIf _, by simp [mayWritePart]⟩
  | skp x => exact ⟨_, _, exec_skp s x, s.onlyChanges_skipIf _, by simp [mayWritePart]⟩
  | sknp x => exact ⟨_, _, exec_sknp s x, s.onlyChanges_skipIf _, by simp [mayWritePart]⟩
  | ldImm x nn => exact ⟨_, _, exec_ldImm s x nn, s.onlyChanges_setReg x _, by simp [mayWritePart]⟩
  | addImm x nn => exact ⟨_, _, exec_addImm s x nn, s.onlyChanges_setReg x _, by simp [mayWritePart]⟩
  | ldReg x y => exact ⟨_, _, exec_ldReg s x y, s.onlyChanges_setReg x _, by simp [mayWritePart]⟩
  | rnd x nn => exact ⟨_, _, exec_rnd s x nn, s.onlyChanges_setReg x _, by simp [mayWritePart]⟩
  | ldFromDelay x => exact ⟨_, _, exec_ldFromDelay s x, s.onlyChanges_setReg x _, by simp [mayWritePart]⟩
  | orReg x y => exact ⟨_, _, exec_orReg s x y, s.onlyChanges_writeLogic x _, by simp [mayWritePart]⟩
  | andReg x y => exact ⟨_, _, exec_andReg s x y, s.onlyChanges_writeLogic x _, by simp [mayWritePart]⟩
  | xorReg x y => exact ⟨_, _, exec_xorReg s x y, s.onlyChanges_writeLogic x _, by simp [mayWritePart]⟩
  | addReg x y => exact ⟨_, _, exec_addReg s x y, s.onlyChanges_writeResultFlag x _ _, by simp [mayWritePart]⟩
  | subReg x y => exact ⟨_, _, exec_subReg s x y, s.onlyChanges_writeResultFlag x _ _, by simp [mayWritePart]⟩
  | subnReg x y => exact ⟨_, _, exec_subnReg s x y, s.onlyChanges_writeResultFlag x _ _, by simp [mayWritePart]⟩
  | shrReg x y => exact ⟨_, _, exec_shrReg s x y, s.onlyChanges_writeResultFlag x _ _, by simp [mayWritePart]⟩
  | shlReg x y => exact ⟨_, _, exec_shlReg s x y, s.onlyChanges_writeResultFlag x _ _, by simp [mayWritePart]⟩
  | ldKey x =>
    cases h : s.currentKey with
    | none => exact ⟨_, _, exec_ldKey_of_none s h x, s.onlyChanges_setPc _, by simp [mayWritePart]⟩
    | some k => exact ⟨_, _, exec_ldKey_of_some s h x, s.onlyChanges_setReg x _, by simp [mayWritePart]⟩
  | ldIndex nnn => exact ⟨_, _, exec_ldIndex s nnn, s.onlyChanges_setIndex _, by simp [mayWritePart]⟩
  | addIndex x => exact ⟨_, _, exec_addIndex s x, s.onlyChanges_setIndex _, by simp [mayWritePart]⟩
  | ldFont x => exact ⟨_, _, exec_ldFont s x, s.onlyChanges_setIndex _, by simp [mayWritePart]⟩
  | ldDelay x => exact ⟨_, _, exec_ldDelay s x, s.onlyChanges_setDelayTimer _, by simp [mayWritePart]⟩
  | ldSound x => exact ⟨_, _, exec_ldSound s x, s.onlyChanges_setSoundTimer _, by simp [mayWritePart]⟩
  | ldBcd x =>
    exact ⟨_, _, exec_ldBcd s x, s.onlyChanges_checked (s.onlyChanges_writeBytes _ _) _ _, by simp [mayWritePart]⟩
  | storeRegs x =>
    exact ⟨_, _, exec_storeRegs s x,
      s.onlyChanges_checked ((s.onlyChanges_writeBytes _ _).trans (State.onlyChanges_bumpIndex _ x)) _ _,
      by simp [mayWritePart]⟩
  | loadRegs x =>
    exact ⟨_, _, exec_loadRegs s x,
      s.onlyChanges_checked ((s.onlyChanges_loadFirstRegs _ _).trans (State.onlyChanges_bumpIndex _ x)) _ _,
      by simp [mayWritePart]⟩
  | drw x y n =>
    cases h : s.drawDeferred with
    | true => exact ⟨_, _, exec_drw_of_deferred s h x y n, s.onlyChanges_setPc _, by simp [mayWritePart]⟩
    | false =>
      exact ⟨_, _, exec_drw_of_ready s h x y n, s.onlyChanges_checked (s.onlyChanges_drawSprite x y n) _ _,
        by simp [mayWritePart]⟩

/-- Settles O53: the parts in an instruction's list are those the table of the state gives it. -/
theorem partsAreWrittenOnlyByTheirInstructions : Obligations.PartsAreWrittenOnlyByTheirInstructions := by
  intro i s t p h hp
  obtain ⟨u, ps, hexec, hframe, hps⟩ := exec_frame i s
  cases hexec.symm.trans h
  exact hframe p fun hmem => by simp [hps p hmem] at hp

/-! ### Which registers each instruction writes (10_state R22, R23) -/

section
variable {s : State} {r : Reg}

theorem State.reg_checked {body : State} (h : body.reg r = s.reg r) (base len : Nat) :
    (s.checked base len body).reg r = s.reg r := by
  rcases s.checked_cases base len body with ⟨hbody, -⟩ | ⟨hfault, -⟩
  · rw [hbody, h]
  · rw [hfault, State.reg_raiseAddressRangeFault]

theorem State.reg_bumpIndex (s : State) (x r : Reg) : (s.bumpIndex x).reg r = s.reg r := by
  rw [s.bumpIndex_frame]
  rfl

theorem State.reg_drawSprite (s : State) (x y : Reg) (n : Imm4) (h : r ≠ VF) :
    (s.drawSprite x y n).reg r = s.reg r := by
  rw [s.drawSprite_frame]
  exact s.reg_setReg_ne h _

end

/-- An instruction that does not write the registers at all. -/
theorem reg_of_not_mayWritePart {i : Instr} {s t : State} (h : exec i s = .next t)
    (hi : mayWritePart i .regs = false) (r : Reg) : t.reg r = s.reg r :=
  partsAreWrittenOnlyByTheirInstructions i s t .regs h hi r

/-- Settles O54: the register after the write of each instruction that writes registers; the frame settles the others. -/
theorem registersAreWrittenOnlyByTheirInstructions : Obligations.RegistersAreWrittenOnlyByTheirInstructions := by
  intro i s t r h hr
  cases i with
  | cls | ret | jp | call | seImm | sneImm | seReg | sneReg | ldIndex | jpV0 | skp | sknp | ldDelay | ldSound | addIndex
  | ldFont | ldBcd | storeRegs => exact reg_of_not_mayWritePart h rfl r
  | ldImm x | addImm x | ldReg x | rnd x | ldFromDelay x =>
    have hx : r ≠ x := by simpa [mayWriteReg] using hr
    cases h
    exact s.reg_setReg_ne hx _
  | ldKey x =>
    have hx : r ≠ x := by simpa [mayWriteReg] using hr
    cases hkey : s.currentKey with
    | none =>
      cases (exec_ldKey_of_none s hkey x).symm.trans h
      rfl
    | some k =>
      cases (exec_ldKey_of_some s hkey x).symm.trans h
      exact s.reg_setReg_ne hx _
  | orReg x y | andReg x y | xorReg x y =>
    obtain ⟨hx, hf⟩ : r ≠ x ∧ (s.cfg.quirks.vfReset = true → r ≠ VF) := by simpa [mayWriteReg] using hr
    cases h
    refine (s.reg_writeLogic x r _).trans ?_
    rw [if_neg (fun ⟨hreset, hvf⟩ => hf hreset hvf), if_neg hx]
  | addReg x y | subReg x y | subnReg x y | shrReg x y | shlReg x y =>
    obtain ⟨hx, hf⟩ : r ≠ x ∧ r ≠ VF := by simpa [mayWriteReg] using hr
    cases h
    refine (s.reg_writeResultFlag x r _ _).trans ?_
    rw [if_neg hf, if_neg hx]
  | loadRegs x =>
    have hx : ¬r.toNat ≤ x.toNat := by simpa [mayWriteReg] using hr
    cases h
    refine State.reg_checked ?_ _ _
    rw [State.reg_bumpIndex, s.reg_loadFirstRegs _ (by have := x.isLt; omega), if_neg (by omega)]
  | drw x y n =>
    cases hd : s.drawDeferred with
    | true =>
      cases (exec_drw_of_deferred s hd x y n).symm.trans h
      rfl
    | false =>
      cases (exec_drw_of_ready s hd x y n).symm.trans h
      refine State.reg_checked (s.reg_drawSprite x y n ?_) _ _
      simpa [mayWriteReg, hd] using hr

/-! ### What an instruction sees of the environment (40_core_cycle R94) -/

/-- The state with other input samples and key times. -/
def State.withEnv (s : State) (inp : Inputs) (keys : Vector (Option Nat) 16) : State :=
  { s with inputs := inp, keyLastPressed := keys }

section
variable (s : State) (inp : Inputs) (keys : Vector (Option Nat) 16)

theorem State.skipIf_withEnv (c : Bool) : (s.withEnv inp keys).skipIf c = (s.skipIf c).withEnv inp keys := by
  simp only [State.skipIf_eq_setPc]
  rfl

theorem State.writeLogic_withEnv (x : Reg) (r : Byte) :
    (s.withEnv inp keys).writeLogic x r = (s.writeLogic x r).withEnv inp keys := by
  unfold State.writeLogic
  rw [apply_ite (State.withEnv · inp keys)]
  rfl

theorem State.checked_withEnv (base len : Nat) (body : State) :
    (s.withEnv inp keys).checked base len (body.withEnv inp keys) = (s.checked base len body).withEnv inp keys := by
  unfold State.checked
  cases rangeFault base len <;> rfl

theorem State.bumpIndex_withEnv (x : Reg) : (s.withEnv inp keys).bumpIndex x = (s.bumpIndex x).withEnv inp keys := by
  unfold State.bumpIndex
  rw [apply_ite (State.withEnv · inp keys)]
  rfl

theorem State.push_withEnv (d : Word) : (s.withEnv inp keys).push d = (s.push d).withEnv inp keys := by
  unfold State.push
  rw [apply_dite (State.withEnv · inp keys)]
  rfl

theorem State.dropTop_withEnv : (s.withEnv inp keys).dropTop = s.dropTop.withEnv inp keys := by
  unfold State.dropTop
  rw [apply_ite (State.withEnv · inp keys)]
  rfl

theorem State.writeBytes_withEnv (a : Nat) (ds : List Byte) :
    (s.withEnv inp keys).writeBytes a ds = (s.writeBytes a ds).withEnv inp keys := rfl

theorem State.firstRegs_withEnv (k : Nat) : (s.withEnv inp keys).firstRegs k = s.firstRegs k := by
  induction k with
  | zero => rfl
  | succ k ih =>
    simp only [State.firstRegs, ih]
    rfl

theorem State.loadFirstRegs_withEnv (base k : Nat) :
    (s.withEnv inp keys).loadFirstRegs base k = (s.loadFirstRegs base k).withEnv inp keys := by
  induction k with
  | zero => rfl
  | succ k ih =>
    simp only [State.loadFirstRegs, ih]
    rfl

theorem State.drawRows_withEnv (x0 y0 base k : Nat) (c : Canvas) :
    (s.withEnv inp keys).drawRows x0 y0 base k c = s.drawRows x0 y0 base k c := by
  induction k with
  | zero => rfl
  | succ k ih =>
    simp only [State.drawRows, ih]
    rfl

theorem State.drawSprite_withEnv (x y : Reg) (n : Imm4) :
    (s.withEnv inp keys).drawSprite x y n = (s.drawSprite x y n).withEnv inp keys := by
  simp only [State.drawSprite_frame, State.drawRows_withEnv]
  rfl

theorem State.isPressed_withEnv (h : (s.withEnv inp keys).currentKey = s.currentKey) (key : Byte) :
    (s.withEnv inp keys).isPressed key = s.isPressed key := by
  simp only [State.isPressed, h]

end

/-- Settles O55: every operation but the random byte and the key test answers the same with another environment. -/
theorem inputsReachOnlyTheirInstructions : Obligations.InputsReachOnlyTheirInstructions := by
  intro i s t inp keys hi hkey h
  change exec i (s.withEnv inp keys) = .next (t.withEnv inp keys)
  cases i with
  | rnd x nn => exact absurd rfl (hi x nn)
  | cls | jp | ldIndex | ldImm | addImm | ldReg | addReg | subReg | subnReg | shrReg | shlReg | jpV0 | ldFromDelay
  | ldDelay | ldSound | addIndex | ldFont =>
    cases h
    rfl
  | seImm | sneImm | seReg | sneReg =>
    cases h
    exact congrArg _ (s.skipIf_withEnv inp keys _)
  | skp x =>
    cases h
    rw [exec_skp, s.isPressed_withEnv inp keys hkey, State.skipIf_withEnv]
    rfl
  | sknp x =>
    cases h
    rw [exec_sknp, s.isPressed_withEnv inp keys hkey, State.skipIf_withEnv]
    rfl
  | ldKey x =>
    cases hk : s.currentKey with
    | none =>
      cases (exec_ldKey_of_none s hk x).symm.trans h
      exact exec_ldKey_of_none (s.withEnv inp keys) (hkey.trans hk) x
    | some k =>
      cases (exec_ldKey_of_some s hk x).symm.trans h
      exact exec_ldKey_of_some (s.withEnv inp keys) (hkey.trans hk) x
  | orReg | andReg | xorReg =>
    cases h
    exact congrArg _ (s.writeLogic_withEnv inp keys _ _)
  | call nnn =>
    cases h
    rw [exec_call, State.push_withEnv]
    rfl
  | ret =>
    cases h
    rw [exec_ret, State.dropTop_withEnv]
    rfl
  | ldBcd x =>
    cases h
    rw [exec_ldBcd, State.writeBytes_withEnv]
    exact congrArg _ (s.checked_withEnv inp keys _ _ _)
  | storeRegs x =>
    cases h
    rw [exec_storeRegs, State.firstRegs_withEnv, State.writeBytes_withEnv, State.bumpIndex_withEnv]
    exact congrArg _ (s.checked_withEnv inp keys _ _ _)
  | loadRegs x =>
    cases h
    rw [exec_loadRegs, State.loadFirstRegs_withEnv, State.bumpIndex_withEnv]
    exact congrArg _ (s.checked_withEnv inp keys _ _ _)
  | drw x y n =>
    cases hd : s.drawDeferred with
    | true =>
      cases (exec_drw_of_deferred s hd x y n).symm.trans h
      exact exec_drw_of_deferred (s.withEnv inp keys) hd x y n
    | false =>
      cases (exec_drw_of_ready s hd x y n).symm.trans h
      rw [exec_drw_of_ready (s.withEnv inp keys) hd x y n, State.drawSprite_withEnv]
      exact congrArg _ (s.checked_withEnv inp keys _ _ _)

end Sys2Proof.Machine
end

section
/-! PROOFS. The range check and the fault (20_memory R55, 60_exceptions R214): an instruction faults exactly when its range
leaves memory, and then writes nothing. -/

namespace Sys2Proof.Machine

section
variable (s : State)

/-! ### The range check -/

theorem State.checked_fault {body : State} (hbody : body.fault = none) (base len : Nat) :
    (s.checked base len body).fault = rangeFault base len := by
  unfold State.checked
  cases rangeFault base len with
  | none => exact hbody
  | some a => rfl

theorem State.checked_onlyChanges_of_fault {body : State} (hbody : body.fault = none) {base len : Nat}
    (h : (s.checked base len body).fault ≠ none) : OnlyChanges [.fault] s (s.checked base len body) := by
  rcases s.checked_cases base len body with ⟨hfits, -⟩ | ⟨hfault, -⟩
  · rw [hfits] at h
    exact absurd hbody h
  · rw [hfault]
    exact s.onlyChanges_raiseAddressRangeFault _

/-- The recorded address is `max base 4096`, as a number, for every base an instruction can have. -/
theorem toNat_of_rangeFault {base len : Nat} {a : FaultAddr} (hbase : base < 2 ^ 16) (h : rangeFault base len = some a) :
    0 < len ∧ 4096 < base + len ∧ a.toNat = max base 4096 := by
  obtain ⟨hlen, hover, rfl⟩ := (rangeFault_eq_some_iff base len a).mp h
  exact ⟨hlen, hover, by rw [BitVec.toNat_ofNat]; omega⟩

theorem State.writeBytes_bumpIndex_fault (a : Nat) (ds : List Byte) (x : Reg) :
    ((s.writeBytes a ds).bumpIndex x).fault = s.fault := by
  rw [State.bumpIndex_frame]
  rfl

theorem State.loadFirstRegs_bumpIndex_fault (base k : Nat) (x : Reg) :
    ((s.loadFirstRegs base k).bumpIndex x).fault = s.fault := by
  rw [State.bumpIndex_frame, State.loadFirstRegs_frame]

theorem State.drawSprite_fault (x y : Reg) (n : Imm4) : (s.drawSprite x y n).fault = s.fault := by
  rw [State.drawSprite_frame]

variable {s}

theorem accessRange_fst_lt (i : Instr) : (accessRange i s).1 < 2 ^ 16 := by
  cases i with
  | ldBcd | storeRegs | loadRegs | drw => exact s.index.isLt
  | _ => exact Nat.two_pow_pos 16

theorem exec_fault_of_checked {i : Instr} {t body : State} {base len : Nat}
    (hexec : exec i s = .next (s.checked base len body)) (hbody : body.fault = none) (h : exec i s = .next t) :
    t.fault = rangeFault base len ∧ (t.fault ≠ none → OnlyChanges [.fault] s t) := by
  cases hexec.symm.trans h
  exact ⟨s.checked_fault hbody base len, s.checked_onlyChanges_of_fault hbody⟩

theorem exec_fault_of_kept {i : Instr} {t : State} (hs : s.fault = none) (hi : mayWritePart i .fault = false)
    (h : exec i s = .next t) : t.fault = rangeFault 0 0 ∧ (t.fault ≠ none → OnlyChanges [.fault] s t) := by
  have hkept : t.fault = none := (partsAreWrittenOnlyByTheirInstructions i s t .fault h hi).trans hs
  exact ⟨hkept, absurd hkept⟩

/-- An instruction records the fault of its range, and then nothing else. -/
theorem exec_fault {i : Instr} {t : State} (hs : s.fault = none) (h : exec i s = .next t) :
    t.fault = rangeFault (accessRange i s).1 (accessRange i s).2 ∧ (t.fault ≠ none → OnlyChanges [.fault] s t) := by
  cases i with
  | ldBcd x => exact exec_fault_of_checked (exec_ldBcd s x) hs h
  | storeRegs x =>
    exact exec_fault_of_checked (exec_storeRegs s x) ((s.writeBytes_bumpIndex_fault _ _ x).trans hs) h
  | loadRegs x =>
    exact exec_fault_of_checked (exec_loadRegs s x) ((s.loadFirstRegs_bumpIndex_fault _ _ x).trans hs) h
  | drw x y n =>
    cases hd : s.drawDeferred with
    | true =>
      cases (exec_drw_of_deferred s hd x y n).symm.trans h
      have hrange : rangeFault (accessRange (.drw x y n) s).1 (accessRange (.drw x y n) s).2 = none := by
        simp [accessRange, hd, rangeFault_eq_none_iff]
      exact ⟨hs.trans hrange.symm, absurd hs⟩
    | false =>
      have hrange : accessRange (.drw x y n) s = (s.index.toNat, n.toNat) := by simp [accessRange, hd]
      rw [hrange]
      exact exec_fault_of_checked (exec_drw_of_ready s hd x y n) ((s.drawSprite_fault x y n).trans hs) h
  | _ => exact exec_fault_of_kept hs rfl h

/-- The fetch of a running core leaves memory only at the last byte: the ROM's extent ends at 4096. -/
theorem State.fetch_eq_error_iff (h : s.stopped = false) (a : FaultAddr) :
    s.fetch = .error a ↔ s.pc = 0x0FFF ∧ a = 4096 := by
  obtain ⟨-, hrom⟩ := s.stopped_eq_false_iff.mp h
  have hlen := s.cfg.romLen.isLt
  have hlast : s.pc = 0x0FFF ↔ s.pc.toNat = 4095 := by rw [← BitVec.toNat_inj]; rfl
  by_cases hfits : s.pc.toNat + 2 ≤ 4096
  · rw [s.fetch_of_fits hfits, hlast]
    constructor
    · intro heq
      cases heq
    · intro ⟨hpc, _⟩
      omega
  · have hpc : s.pc.toNat = 4095 := by omega
    rw [s.fetch_of_exceeds (by omega), hlast, hpc]
    simp [eq_comm]

end

/-! ### The obligation -/

/-- Settles O10: the fault an instruction records is that of its range, whose lowest address outside is `max base 4096`. -/
theorem rangeIsCheckedBeforeAnyWrite : Obligations.RangeIsCheckedBeforeAnyWrite := by
  refine ⟨fun i s hs => ?_, fun s a hs => State.fetch_eq_error_iff hs a⟩
  obtain ⟨t, ht⟩ := exec_next s i
  obtain ⟨hfault, hframe⟩ := exec_fault hs ht
  have hbase := accessRange_fst_lt (s := s) i
  refine ⟨t, ht, ?_, fun a ha => ?_⟩
  · rw [hfault]
    constructor
    · rintro ⟨a, ha⟩
      obtain ⟨hlen, hover, haddr⟩ := toNat_of_rangeFault hbase ha
      exact ⟨a.toNat, by omega, by omega, by omega⟩
    · rintro ⟨b, hb, hb', hout⟩
      exact ⟨_, (rangeFault_eq_some_iff _ _ _).mpr ⟨by omega, by omega, rfl⟩⟩
  · obtain ⟨hlen, hover, haddr⟩ := toNat_of_rangeFault hbase (hfault.symm.trans ha)
    exact ⟨by omega, by omega, by omega, fun b hb hout => by omega, hframe (by simp [ha])⟩

end Sys2Proof.Machine
end

section
/-! PROOFS. The core cycle and its closing phases (40_core_cycle, 60_exceptions). -/

namespace Sys2Proof.Machine

/-! ### The cycles that execute nothing (40_core_cycle R91, R98) -/

section
variable {s : State}

theorem OnlyChanges.stopped_eq {t : State} (h : OnlyChanges strobes s t) : t.stopped = s.stopped := by
  have hfault := h .fault (by simp [strobes])
  have hpc := h .pc (by simp [strobes])
  have hcfg := h .config (by simp [strobes])
  simp only [Part.same] at hfault hpc hcfg
  simp [State.stopped, State.halted, hfault, hpc, hcfg]

theorem State.stopped_abandonCycle (a : FaultAddr) : (s.abandonCycle a).stopped = true :=
  State.stopped_iff _ |>.mpr (.inl (Option.some_ne_none a))

theorem step_idleCycle (h : s.stopped = true) : step s.idleCycle = .next s.idleCycle :=
  step_of_stopped _ (s.idleCycle_frame.1.stopped_eq.trans h)

theorem step_abandonCycle (a : FaultAddr) : step (s.abandonCycle a) = .next (s.abandonCycle a) :=
  step_of_stopped _ (State.stopped_abandonCycle a)

theorem step_of_execute_fault {w : Word} {t : State} {a : FaultAddr} (h : s.stopped = false) (hf : s.fetch = .ok w)
    (he : executeWord w s.beginExecute = .next t) (ha : t.fault = some a) : step s = .next (s.abandonCycle a) := by
  rw [step_of_executed s h hf he, s.finishCycle_of_fault t ha]

theorem step_of_execute_no_fault {w : Word} {t : State} (h : s.stopped = false) (hf : s.fetch = .ok w)
    (he : executeWord w s.beginExecute = .next t) (ht : t.fault = none) : step s = .next t.endCycle := by
  rw [step_of_executed s h hf he, s.finishCycle_of_no_fault t ht]

theorem exists_step (s : State) : ∃ t, step s = .next t := by
  cases h : s.stopped with
  | true => exact ⟨_, step_of_stopped s h⟩
  | false =>
    cases hf : s.fetch with
    | error a => exact ⟨_, step_of_fetch_error s h hf⟩
    | ok w =>
      obtain ⟨t, he⟩ := executeWord_next s.beginExecute w
      exact ⟨_, step_of_executed s h hf he⟩

end

/-! ### What the execution of a word leaves unchanged -/

/-- A part that no instruction of the word writes, other than the report of an unknown word. -/
theorem same_of_executeWord {w : Word} {s t : State} {p : Part} (h : executeWord w s = .next t) (hp : p ≠ .unknown)
    (hi : ∀ i, decodeWord w = some i → mayWritePart i p = false) : p.same s t := by
  cases hw : decodeWord w with
  | none =>
    cases (executeWord_unknown s hw).symm.trans h
    exact s.onlyChanges_reportUnknown w p (by simpa using hp)
  | some i =>
    rw [executeWord_decoded s hw] at h
    exact partsAreWrittenOnlyByTheirInstructions i s t p h (hi i hw)

/-- The parts no instruction writes: the static inputs, the key table, the times, the input samples, `render` and
`tone`, and the report of an unknown word. -/
theorem mayWritePart_of_environment (i : Instr) :
    ∀ p ∈ [Part.config, .keys, .lastTimerUpdate, .nextFrameDue, .inputs, .cycle, .render, .tone, .unknown],
      mayWritePart i p = false := by
  cases i <;> simp [mayWritePart]

/-- The static inputs are the same after an executed word. -/
theorem cfg_of_executeWord {w : Word} {s t : State} (h : executeWord w s = .next t) : t.cfg = s.cfg :=
  same_of_executeWord (p := .config) h (by decide) fun i _ => mayWritePart_of_environment i _ (by decide)

theorem inputs_of_executeWord {w : Word} {s t : State} (h : executeWord w s = .next t) : t.inputs = s.inputs :=
  same_of_executeWord (p := .inputs) h (by decide) fun i _ => mayWritePart_of_environment i _ (by decide)

theorem keyLastPressed_of_executeWord {w : Word} {s t : State} (h : executeWord w s = .next t) :
    t.keyLastPressed = s.keyLastPressed :=
  same_of_executeWord (p := .keys) h (by decide) fun i _ => mayWritePart_of_environment i _ (by decide)

theorem lastTimerUpdate_of_executeWord {w : Word} {s t : State} (h : executeWord w s = .next t) :
    t.lastTimerUpdate = s.lastTimerUpdate :=
  same_of_executeWord (p := .lastTimerUpdate) h (by decide) fun i _ => mayWritePart_of_environment i _ (by decide)

theorem nextFrameDue_of_executeWord {w : Word} {s t : State} (h : executeWord w s = .next t) :
    t.nextFrameDue = s.nextFrameDue :=
  same_of_executeWord (p := .nextFrameDue) h (by decide) fun i _ => mayWritePart_of_environment i _ (by decide)

/-! ### Blocked instructions (40_core_cycle R97) -/

/-- A retry takes back the advance of the fetch phase. -/
theorem State.beginExecute_retry (s : State) : s.beginExecute.setPc (s.beginExecute.pc - 2) = s.clearStrobes := by
  have hpc : s.pc + 2 - 2 = s.pc := BitVec.add_sub_cancel _ _
  rw [State.beginExecute_pc, hpc]
  rfl

/-- The cycle of a blocked instruction: the state before it with the pulses low, then the closing phases. -/
theorem cycleExecutes_of_retry {s : State} {w : Word} (h : s.stopped = false) (hf : s.fetch = .ok w)
    (he : executeWord w s.beginExecute = .next (s.beginExecute.setPc (s.beginExecute.pc - 2))) :
    CycleExecutes s s.clearStrobes s.clearStrobes.endCycle := by
  rw [s.beginExecute_retry] at he
  exact cycleExecutes_of h hf he (s.stopped_eq_false_iff.mp h).1

theorem cycleExecutes_of_ldKey {s : State} {w : Word} {x : Reg} (h : s.stopped = false) (hf : s.fetch = .ok w)
    (hw : decodeWord w = some (.ldKey x)) (hkey : s.currentKey = none) :
    CycleExecutes s s.clearStrobes s.clearStrobes.endCycle :=
  cycleExecutes_of_retry h hf ((executeWord_decoded _ hw).trans (exec_ldKey_of_none s.beginExecute hkey x))

theorem cycleExecutes_of_deferred {s : State} {w : Word} {x y : Reg} {n : Imm4} (h : s.stopped = false)
    (hf : s.fetch = .ok w) (hw : decodeWord w = some (.drw x y n)) (hd : s.drawDeferred = true) :
    CycleExecutes s s.clearStrobes s.clearStrobes.endCycle :=
  cycleExecutes_of_retry h hf ((executeWord_decoded _ hw).trans (exec_drw_of_deferred s.beginExecute hd x y n))

/-! ### The closing phases -/

theorem countDown_toNat (t : Byte) : (countDown t).toNat = t.toNat - 1 := by
  unfold countDown
  split_ifs with h
  · have hle : (1 : Byte) ≤ t := h
    exact BitVec.toNat_sub_of_le hle
  · omega

theorem State.endCycle_onlyChanges (s : State) :
    OnlyChanges [.delayTimer, .soundTimer, .lastTimerUpdate, .tone, .displayDirty, .waitCounter, .nextFrameDue, .render,
      .keys, .inputs, .cycle] s s.endCycle := by
  obtain ⟨hunknown, hover, hunder⟩ := s.endCycle_reports
  intro p hp
  cases p with
  | config => exact s.endCycle_cfg
  | memory => exact fun a => by simp only [State.byteAt, s.endCycle_cfg, s.endCycle_mem]
  | regs => exact fun r => by simp only [State.reg, s.endCycle_v]
  | index => exact s.endCycle_index
  | pc => exact s.endCycle_pc
  | stack => exact s.endCycle_stack
  | display => exact s.endCycle_display
  | fault => exact s.endCycle_fault
  | unknown => exact hunknown
  | stackOverflow => exact hover
  | stackUnderflow => exact hunder
  | _ => simp at hp

/-! ### The obligations -/

/-- Settles O5: the state the instruction starts from is the one after the fetch phase. -/
theorem stepRunsTheDecodedInstruction : Obligations.StepRunsTheDecodedInstruction := by
  intro s i hfault hpc hfits hdec
  obtain ⟨hframe, hpc', hlow⟩ := s.beginExecute_frame
  have hstop : s.stopped = false := s.stopped_eq_false_iff.mpr ⟨hfault, hpc⟩
  have hfetch := s.fetch_of_fits (by omega)
  have hword := executeWord_decoded s.beginExecute (decode_cons_cons_eq_ok_iff.mp hdec).1
  refine ⟨s.beginExecute, hframe, hpc', hlow, fun t ht => ⟨fun hnone => ?_, fun a ha => ?_⟩⟩
  · exact step_of_execute_no_fault hstop hfetch (hword.trans ht) hnone
  · obtain ⟨hkept, -, hrec⟩ := s.abandonCycle_frame a
    exact ⟨_, step_of_execute_fault hstop hfetch (hword.trans ht) ha, hrec, hkept⟩

/-- Settles O6: each way a step goes ends in a next state. -/
theorem everyStateSteps : Obligations.EveryStateSteps := exists_step

/-- Settles O7: a word of no row decodes to nothing, and only the report is written. -/
theorem unknownWordIsAReportedNoOp : Obligations.UnknownWordIsAReportedNoOp := by
  intro w hrows
  have hw := (decodeWord_eq_none_iff w).mpr hrows
  refine ⟨fun s => ⟨_, executeWord_unknown s hw, rfl, s.onlyChanges_reportUnknown w⟩, fun s hs hf => ?_⟩
  have hcycle := cycleExecutes_of hs hf (executeWord_unknown s.beginExecute hw) (s.stopped_eq_false_iff.mp hs).1
  obtain ⟨-, -, hstep, -⟩ := hcycle
  exact ⟨_, hstep, State.endCycle_pc _, (State.endCycle_reports _).1⟩

/-- Settles O8: a core whose run has ended is idle, and its idle cycle is a fixed point. -/
theorem endedRunChangesNothing : Obligations.EndedRunChangesNothing := by
  refine ⟨State.halted_iff, State.stopped_iff, fun s hs => ?_⟩
  obtain ⟨hframe, hlow⟩ := s.idleCycle_frame
  exact ⟨_, step_of_stopped s hs, hframe, hlow, hframe.stopped_eq.trans hs, step_idleCycle hs⟩

/-- Settles O9: whichever phase faults, the cycle is abandoned, and an abandoned cycle is a fixed point. -/
theorem faultAbandonsTheCycle : Obligations.FaultAbandonsTheCycle := by
  intro s a hs hfault
  obtain ⟨hframe, hlow, hrec⟩ := s.abandonCycle_frame a
  refine ⟨s.abandonCycle a, ?_, hrec, hframe, hlow, step_abandonCycle a⟩
  rcases hfault with hfetch | ⟨w, t, hfetch, hexec, ha⟩
  · exact step_of_fetch_error s hs hfetch
  · exact step_of_execute_fault hs hfetch hexec ha

/-- Settles O11: a blocked instruction leaves the state before the cycle, its pulses low. -/
theorem blockedInstructionIsRetried : Obligations.BlockedInstructionIsRetried := by
  intro s w hs hf
  obtain ⟨hframe, hlow⟩ := s.idleCycle_frame
  refine ⟨fun x hw hkey => ?_, fun x y n hw hwait hcounter => ?_⟩
  · exact ⟨_, cycleExecutes_of_ldKey hs hf hw hkey, rfl, hframe, hlow⟩
  · exact ⟨_, cycleExecutes_of_deferred hs hf hw (s.drawDeferred_iff.mpr ⟨hwait, hcounter⟩), rfl, hframe, hlow⟩

/-- Settles O12: no instruction and no closing phase writes the static inputs. -/
theorem configurationIsConstant : Obligations.ConfigurationIsConstant := by
  intro s t h
  rcases step_cases h with ⟨-, rfl⟩ | ⟨-, a, -, rfl⟩ | ⟨-, w, u, -, he, ⟨a, -, rfl⟩ | ⟨-, rfl⟩⟩
  · rfl
  · rfl
  · rfl
  · exact u.endCycle_cfg.trans (cfg_of_executeWord (s := s.beginExecute) he)

/-- Settles O13: only an executed cycle draws new samples, and its new `now` is the old one plus a number. -/
theorem timeNeverDecreases : Obligations.TimeNeverDecreases := by
  intro s t h
  rcases step_cases h with ⟨-, rfl⟩ | ⟨-, a, -, rfl⟩ | ⟨-, w, u, -, he, ⟨a, -, rfl⟩ | ⟨-, rfl⟩⟩
  · rfl
  · rfl
  · rfl
  · rw [u.endCycle_now, inputs_of_executeWord he]
    exact Nat.le_add_right _ _

/-- Settles O16: the timers after the closing phases; the times are natural numbers, so truncation does not show. -/
theorem timerPhaseCountsDown : Obligations.TimerPhaseCountsDown := by
  intro s t u hcycle
  obtain ⟨hdelay, hsound, hlast⟩ := t.endCycle_timers
  rw [hcycle.eq_endCycle, hdelay, hsound, hlast]
  have hdue := t.timerDue_iff
  refine ⟨fun h => ?_, fun h => ?_⟩
  · rw [hdue.mpr (by omega)]
    exact ⟨rfl, countDown_toNat _, countDown_toNat _⟩
  · rw [Bool.eq_false_iff.mpr (mt hdue.mp (by omega))]
    exact ⟨rfl, rfl, rfl⟩

/-- Settles O17: the frame state after the closing phases. -/
theorem framePhaseRendersDueFrames : Obligations.FramePhaseRendersDueFrames := by
  intro s t u hcycle
  obtain ⟨hdirty, hcounter, hnext, hrender⟩ := t.endCycle_frame
  rw [hcycle.eq_endCycle, hdirty, hcounter, hnext, hrender]
  have hdue := t.frameDue_iff
  refine ⟨fun h => ?_, fun h => ?_⟩
  · rw [hdue.mpr h]
    exact ⟨rfl, rfl, rfl, rfl⟩
  · rw [Bool.eq_false_iff.mpr (mt hdue.mp (by omega))]
    exact ⟨rfl, rfl, rfl, rfl⟩

/-- Settles O19: `tone` after the closing phases. -/
theorem toneFollowsTheSoundTimer : Obligations.ToneFollowsTheSoundTimer := by
  intro s t u hcycle
  rw [hcycle.eq_endCycle, t.endCycle_tone]
  exact decide_eq_true_iff

/-- Settles O20: the frame of the closing phases. -/
theorem closingPhasesFrame : Obligations.ClosingPhasesFrame := by
  intro s t u hcycle
  rw [hcycle.eq_endCycle]
  exact t.endCycle_onlyChanges

end Sys2Proof.Machine
end

section
/-! PROOFS. The frame-sync state machine (60_exceptions R225 to R227, 44_display R172, R176). -/

namespace Sys2Proof.Machine

/-! ### A draw in an executed cycle -/

section
variable {s t : State}

theorem State.endCycle_reg (s : State) (r : Reg) : s.endCycle.reg r = s.reg r :=
  s.endCycle_onlyChanges .regs (by decide) r

theorem State.checked_eq_body_of_no_fault {base len : Nat} {body : State}
    (h : (s.checked base len body).fault = none) : s.checked base len body = body := by
  rcases s.checked_cases base len body with ⟨hbody, -⟩ | ⟨hfault, -⟩
  · exact hbody
  · rw [hfault] at h
    cases h

/-- A ready draw that does not fault draws. -/
theorem eq_drawSprite_of_exec_drw {x y : Reg} {n : Imm4} (hd : s.drawDeferred = false)
    (h : exec (.drw x y n) s = .next t) (ht : t.fault = none) : t = s.drawSprite x y n := by
  cases (exec_drw_of_ready s hd x y n).symm.trans h
  exact State.checked_eq_body_of_no_fault ht

theorem State.displayWaitCounter_drawSprite (s : State) (x y : Reg) (n : Imm4) :
    (s.drawSprite x y n).displayWaitCounter =
      if s.cfg.quirks.displayWait then s.displayWaitCounter + 1 else s.displayWaitCounter := by
  rw [s.drawSprite_frame]

theorem State.displayDirty_drawSprite (s : State) (x y : Reg) (n : Imm4) :
    (s.drawSprite x y n).displayDirty = true := by
  rw [s.drawSprite_frame]

theorem State.pc_drawSprite (s : State) (x y : Reg) (n : Imm4) : (s.drawSprite x y n).pc = s.pc := by
  rw [s.drawSprite_frame]

/-- Only a draw writes the counter. -/
theorem mayWritePart_waitCounter {i : Instr} (h : ∀ x y n, i ≠ .drw x y n) : mayWritePart i .waitCounter = false := by
  cases i with
  | drw x y n => exact absurd rfl (h x y n)
  | _ => rfl

/-- With `display_wait` off a draw leaves the counter alone, and every other word does so in any case. -/
theorem displayWaitCounter_of_executeWord {w : Word} (he : executeWord w s = .next t) (ht : t.fault = none)
    (h : s.cfg.quirks.displayWait = false ∨ ∀ x y n, decodeWord w ≠ some (.drw x y n)) :
    t.displayWaitCounter = s.displayWaitCounter := by
  by_cases hdrw : ∃ x y n, decodeWord w = some (.drw x y n)
  · obtain ⟨x, y, n, hw⟩ := hdrw
    have hwait : s.cfg.quirks.displayWait = false := h.resolve_right fun hne => hne x y n hw
    have hd : s.drawDeferred = false := by simp [State.drawDeferred, hwait]
    rw [eq_drawSprite_of_exec_drw hd ((executeWord_decoded s hw).symm.trans he) ht,
      s.displayWaitCounter_drawSprite, hwait]
    rfl
  · refine same_of_executeWord (p := .waitCounter) he (by decide) fun i hi => mayWritePart_waitCounter ?_
    rintro x y n rfl
    exact hdrw ⟨x, y, n, hi⟩

end

/-! ### The obligations -/

/-- Settles O21: the cycle of a deferred draw is the closing phases alone, and these clear the counter in a due frame. -/
theorem deferredDrawWaitsForAFrame : Obligations.DeferredDrawWaitsForAFrame := by
  intro s w x y n hs hf hw hwait hcounter
  have hcycle := cycleExecutes_of_deferred hs hf hw (s.drawDeferred_iff.mpr ⟨hwait, hcounter⟩)
  obtain ⟨hdue, hnotDue⟩ := framePhaseRendersDueFrames _ _ _ hcycle
  obtain ⟨-, -, hstep, -⟩ := hcycle
  refine ⟨_, hstep, State.endCycle_pc _, State.endCycle_display _, State.endCycle_reg _, ⟨fun hzero => ?_, fun h => ?_⟩,
    fun h => ?_⟩
  · by_contra hlt
    obtain ⟨-, -, hkept, -⟩ := hnotDue (Nat.lt_of_not_le hlt)
    exact hcounter (hkept.symm.trans hzero)
  · obtain ⟨-, -, hzero, -⟩ := hdue h
    exact hzero
  · obtain ⟨-, -, hkept, -⟩ := hnotDue h
    exact hkept

/-- Settles O56: a draw moves the counter when it draws, and the frame phase when it is due; nothing else does. -/
theorem frameSyncStateMachine : Obligations.FrameSyncStateMachine := by
  intro s t u w hf hcycle
  obtain ⟨hdue, hnotDue⟩ := framePhaseRendersDueFrames s t u hcycle
  obtain ⟨-, ht, -, w', hf', he⟩ := hcycle
  cases hf.symm.trans hf'
  have hnext : t.nextFrameDue = s.nextFrameDue := nextFrameDue_of_executeWord (s := s.beginExecute) he
  have hinputs : t.inputs = s.inputs := inputs_of_executeWord (s := s.beginExecute) he
  rw [hnext, hinputs] at hdue hnotDue
  refine ⟨fun hwait x y n hw => ⟨fun hzero => ?_, fun hcounter => ?_⟩, fun h => ?_, fun h => ?_, fun h => ?_⟩
  · have hd : s.beginExecute.drawDeferred = false := by simp [State.drawDeferred, hzero]
    rw [eq_drawSprite_of_exec_drw hd ((executeWord_decoded _ hw).symm.trans he) ht]
    rw [State.displayWaitCounter_drawSprite, State.displayDirty_drawSprite, State.pc_drawSprite]
    simp [hwait, hzero]
  · have hd : s.beginExecute.drawDeferred = true := s.drawDeferred_iff.mpr ⟨hwait, hcounter⟩
    cases ((executeWord_decoded _ hw).trans (exec_drw_of_deferred _ hd x y n)).symm.trans he
    rw [s.beginExecute_retry]
    exact ⟨rfl, rfl, rfl, rfl, fun _ => rfl⟩
  · exact displayWaitCounter_of_executeWord (s := s.beginExecute) he ht h
  · obtain ⟨hrender, hdirty, hcounter, hdeadline⟩ := hdue h
    exact ⟨hcounter, hrender, hdirty, hdeadline⟩
  · obtain ⟨hrender, hdirty, hcounter, hdeadline⟩ := hnotDue h
    exact ⟨hcounter, hrender, hdirty, hdeadline⟩

end Sys2Proof.Machine
end

section
/-! PROOFS. The invariant of the machine: it holds after reset, and every step keeps it (10_state, 60_exceptions). -/

namespace Sys2Proof.Machine

/-! ### Memory stays in canonical form (20_memory) -/

section
variable {s : State}

theorem State.memWf_checked {body : State} (hs : Memory.wf s.cfg.font s.mem = true)
    (hbody : Memory.wf body.cfg.font body.mem = true) (base len : Nat) :
    Memory.wf (s.checked base len body).cfg.font (s.checked base len body).mem = true := by
  rcases s.checked_cases base len body with ⟨h, -⟩ | ⟨h, -⟩
  · rw [h]
    exact hbody
  · rw [h]
    exact hs

/-- An instruction keeps the canonical form: only `FX33` and `FX55` write memory, byte by byte. -/
theorem memWf_of_exec {i : Instr} {t : State} (hs : Memory.wf s.cfg.font s.mem = true) (h : exec i s = .next t) :
    Memory.wf t.cfg.font t.mem = true := by
  cases i with
  | ldBcd x =>
    cases h
    exact State.memWf_checked hs (Memory.writeList_wf hs _ _) _ _
  | storeRegs x =>
    cases h
    refine State.memWf_checked hs ?_ _ _
    rw [State.bumpIndex_frame]
    exact Memory.writeList_wf hs _ _
  | loadRegs x =>
    cases h
    refine State.memWf_checked hs ?_ _ _
    rw [State.bumpIndex_frame, State.loadFirstRegs_frame]
    exact hs
  | drw x y n =>
    cases hd : s.drawDeferred with
    | true =>
      cases (exec_drw_of_deferred s hd x y n).symm.trans h
      exact hs
    | false =>
      cases (exec_drw_of_ready s hd x y n).symm.trans h
      refine State.memWf_checked hs ?_ _ _
      rw [s.drawSprite_frame]
      exact hs
  | ldKey x =>
    cases hk : s.currentKey with
    | none =>
      cases (exec_ldKey_of_none s hk x).symm.trans h
      exact hs
    | some k =>
      cases (exec_ldKey_of_some s hk x).symm.trans h
      exact hs
  | call nnn =>
    cases h
    rw [State.push_frame]
    exact hs
  | ret =>
    cases h
    rw [State.dropTop_frame]
    exact hs
  | orReg x y | andReg x y | xorReg x y =>
    cases h
    rw [State.writeLogic_frame]
    exact hs
  | seImm | sneImm | seReg | sneReg | skp | sknp =>
    cases h
    rw [State.skipIf_eq]
    exact hs
  | _ =>
    cases h
    exact hs

theorem memWf_of_executeWord {w : Word} {t : State} (hs : Memory.wf s.cfg.font s.mem = true)
    (h : executeWord w s = .next t) : Memory.wf t.cfg.font t.mem = true := by
  cases hw : decodeWord w with
  | none =>
    cases (executeWord_unknown s hw).symm.trans h
    exact hs
  | some i => exact memWf_of_exec hs ((executeWord_decoded s hw).symm.trans h)

/-! ### A recorded address is out of range and carried in 16 bits (60_exceptions R214) -/

theorem faultOutOfRange_of_rangeFault {base len : Nat} {a : FaultAddr} (hbase : base < 2 ^ 16)
    (h : rangeFault base len = some a) : 4096 ≤ a.toNat ∧ a.toNat ≤ 0xFFFF := by
  obtain ⟨-, -, haddr⟩ := toNat_of_rangeFault hbase h
  omega

theorem faultOutOfRange_of_fetch {a : FaultAddr} (h : s.stopped = false) (hf : s.fetch = .error a) :
    4096 ≤ a.toNat ∧ a.toNat ≤ 0xFFFF := by
  obtain ⟨-, rfl⟩ := (State.fetch_eq_error_iff h a).mp hf
  decide

theorem faultOutOfRange_of_executeWord {w : Word} {t : State} {a : FaultAddr} (hs : s.fault = none)
    (h : executeWord w s = .next t) (ha : t.fault = some a) : 4096 ≤ a.toNat ∧ a.toNat ≤ 0xFFFF := by
  cases hw : decodeWord w with
  | none =>
    cases (executeWord_unknown s hw).symm.trans h
    cases hs.symm.trans ha
  | some i =>
    obtain ⟨hfault, -⟩ := exec_fault hs ((executeWord_decoded s hw).symm.trans h)
    exact faultOutOfRange_of_rangeFault (accessRange_fst_lt i) (hfault.symm.trans ha)

/-! ### The wait counter (10_state R32) -/

theorem waitCounterLegal_of_executeWord {w : Word} {t : State} (h : executeWord w s = .next t) (ht : t.fault = none)
    (hs : s.displayWaitCounter = 0 ∨ (s.cfg.quirks.displayWait = true ∧ s.displayWaitCounter = 1)) :
    t.displayWaitCounter = 0 ∨ (t.cfg.quirks.displayWait = true ∧ t.displayWaitCounter = 1) := by
  rw [cfg_of_executeWord h]
  by_cases hdraws : s.cfg.quirks.displayWait = true ∧ ∃ x y n, decodeWord w = some (.drw x y n)
  · obtain ⟨hwait, x, y, n, hw⟩ := hdraws
    have hexec := (executeWord_decoded s hw).symm.trans h
    cases hd : s.drawDeferred with
    | true =>
      cases (exec_drw_of_deferred s hd x y n).symm.trans hexec
      exact hs
    | false =>
      have hzero : s.displayWaitCounter = 0 := by simpa [State.drawDeferred, hwait] using hd
      rw [eq_drawSprite_of_exec_drw hd hexec ht, s.displayWaitCounter_drawSprite, hwait, hzero]
      exact .inr ⟨rfl, rfl⟩
  · have hkept : s.cfg.quirks.displayWait = false ∨ ∀ x y n, decodeWord w ≠ some (.drw x y n) := by
      simpa [imp_iff_not_or] using hdraws
    rw [displayWaitCounter_of_executeWord h ht hkept]
    exact hs

/-! ### At most one event (60_exceptions R217) -/

theorem State.strobesLow_clearStrobes (s : State) : s.clearStrobes.StrobesLow := ⟨rfl, rfl, rfl, rfl⟩

theorem State.strobesLow_beginExecute (s : State) : s.beginExecute.StrobesLow := ⟨rfl, rfl, rfl, rfl⟩

theorem State.strobesLow_abandonCycle (s : State) (a : FaultAddr) : (s.abandonCycle a).StrobesLow :=
  ⟨rfl, rfl, rfl, rfl⟩

theorem State.StrobesLow.eventCount_eq (h : s.StrobesLow) : s.eventCount = s.fault.isSome.toNat := by
  obtain ⟨-, hunknown, hover, hunder⟩ := h
  simp [State.eventCount, hunknown, hover, hunder]

theorem State.StrobesLow.eventCount_le_one (h : s.StrobesLow) : s.eventCount ≤ 1 :=
  h.eventCount_eq ▸ Bool.toNat_le _

theorem mayWritePart_stack_reports (i : Instr) :
    mayWritePart i .stackOverflow = false ∨ mayWritePart i .stackUnderflow = false := by
  cases i with
  | call => exact .inr rfl
  | _ => exact .inl rfl

/-- An unknown word reports itself alone; an instruction reports an overflow or an underflow, and never both. -/
theorem eventCount_le_one_of_executeWord {w : Word} {t : State} (hlow : s.StrobesLow) (h : executeWord w s = .next t)
    (ht : t.fault = none) : t.eventCount ≤ 1 := by
  obtain ⟨-, hunknown, hover, hunder⟩ := hlow
  cases hw : decodeWord w with
  | none =>
    cases (executeWord_unknown s hw).symm.trans h
    simp [State.eventCount, hover, hunder, show s.fault = none from ht]
  | some i =>
    rw [executeWord_decoded s hw] at h
    have hsame := fun p => partsAreWrittenOnlyByTheirInstructions i s t p h
    have hunknown' := (hsame .unknown (mayWritePart_of_environment i _ (by decide))).trans hunknown
    rcases mayWritePart_stack_reports i with hi | hi
    · have hover' := (hsame .stackOverflow hi).trans hover
      simpa [State.eventCount, ht, hunknown', hover'] using Bool.toNat_le _
    · have hunder' := (hsame .stackUnderflow hi).trans hunder
      simpa [State.eventCount, ht, hunknown', hunder'] using Bool.toNat_le _

theorem State.eventCount_endCycle (s : State) : s.endCycle.eventCount = s.eventCount := by
  obtain ⟨hunknown, hover, hunder⟩ := s.endCycle_reports
  simp only [State.eventCount, hunknown, hover, hunder, s.endCycle_fault]

end

/-! ### The invariant, through each part of a step -/

/-- A cycle that executes nothing keeps the invariant: the pulses fall. -/
theorem Inv.idleCycle {s : State} (h : Inv s) : Inv s.idleCycle where
  memoryCanonical := h.memoryCanonical
  timerNotAhead := h.timerNotAhead
  keysNotAhead := h.keysNotAhead
  frameNotFar := h.frameNotFar
  waitCounterLegal := h.waitCounterLegal
  faultOutOfRange := h.faultOutOfRange
  oneEvent := s.strobesLow_clearStrobes.eventCount_le_one

/-- An abandoned cycle keeps the invariant when the address it records is out of range. -/
theorem Inv.abandonCycle {s : State} (h : Inv s) {a : FaultAddr} (ha : 4096 ≤ a.toNat ∧ a.toNat ≤ 0xFFFF) :
    Inv (s.abandonCycle a) where
  memoryCanonical := h.memoryCanonical
  timerNotAhead := h.timerNotAhead
  keysNotAhead := h.keysNotAhead
  frameNotFar := h.frameNotFar
  waitCounterLegal := h.waitCounterLegal
  faultOutOfRange := by
    rintro b ⟨⟩
    exact ha
  oneEvent := (State.strobesLow_abandonCycle s a).eventCount_le_one

/-- The fetch phase keeps the invariant. -/
theorem Inv.beginExecute {s : State} (h : Inv s) : Inv s.beginExecute where
  memoryCanonical := h.memoryCanonical
  timerNotAhead := h.timerNotAhead
  keysNotAhead := h.keysNotAhead
  frameNotFar := h.frameNotFar
  waitCounterLegal := h.waitCounterLegal
  faultOutOfRange := h.faultOutOfRange
  oneEvent := s.strobesLow_beginExecute.eventCount_le_one

/-- A word executed from low pulses and without a fault keeps the invariant. -/
theorem Inv.executeWord {s t : State} {w : Word} (h : Inv s) (hlow : s.StrobesLow)
    (he : executeWord w s = .next t) (ht : t.fault = none) : Inv t where
  memoryCanonical := memWf_of_executeWord h.memoryCanonical he
  timerNotAhead := by
    rw [lastTimerUpdate_of_executeWord he, inputs_of_executeWord he]
    exact h.timerNotAhead
  keysNotAhead := by
    rw [keyLastPressed_of_executeWord he, inputs_of_executeWord he]
    exact h.keysNotAhead
  frameNotFar := by
    rw [nextFrameDue_of_executeWord he, inputs_of_executeWord he]
    exact h.frameNotFar
  waitCounterLegal := waitCounterLegal_of_executeWord he ht h.waitCounterLegal
  faultOutOfRange := by simp [ht]
  oneEvent := eventCount_le_one_of_executeWord hlow he ht

/-- The closing phases keep the invariant: what they stamp is `now`, which the next sample does not go below. -/
theorem Inv.endCycle {s : State} (h : Inv s) : Inv s.endCycle := by
  obtain ⟨-, -, hlast⟩ := s.endCycle_timers
  obtain ⟨-, hcounter, hnext, -⟩ := s.endCycle_frame
  have hnow := s.endCycle_now
  have htimer := h.timerNotAhead
  have hframe := h.frameNotFar
  exact {
    memoryCanonical := by
      rw [s.endCycle_cfg, s.endCycle_mem]
      exact h.memoryCanonical
    timerNotAhead := by
      rw [hlast]
      split_ifs <;> omega
    keysNotAhead := by
      intro k t hk
      rw [s.endCycle_keys] at hk
      split_ifs at hk
      · cases hk
        omega
      · have := h.keysNotAhead k t hk
        omega
    frameNotFar := by
      rw [hnext]
      split_ifs <;> omega
    waitCounterLegal := by
      rw [hcounter, s.endCycle_cfg]
      split_ifs
      · exact .inl rfl
      · exact h.waitCounterLegal
    faultOutOfRange := by
      rw [s.endCycle_fault]
      exact h.faultOutOfRange
    oneEvent := s.eventCount_endCycle ▸ h.oneEvent }

/-! ### The obligations -/

/-- Settles O14: each way a step goes keeps the invariant. -/
theorem stepKeepsTheInvariant : Obligations.StepKeepsTheInvariant := by
  intro s u h hstep
  rcases step_cases hstep with ⟨-, rfl⟩ | ⟨hs, a, hf, rfl⟩ | ⟨hs, w, t, hf, he, ⟨a, ha, rfl⟩ | ⟨ht, rfl⟩⟩
  · exact h.idleCycle
  · exact h.abandonCycle (faultOutOfRange_of_fetch hs hf)
  · exact h.abandonCycle (faultOutOfRange_of_executeWord (s := s.beginExecute) (s.stopped_eq_false_iff.mp hs).1 he ha)
  · exact (h.beginExecute.executeWord s.strobesLow_beginExecute he ht).endCycle

end Sys2Proof.Machine
end

section
/-! PROOFS. The state after reset (70_reset R250 to R252): what it holds, and that it meets the invariant. -/

namespace Sys2Proof.Machine

section
variable (cfg : Config) (rom : Vector Byte cfg.romLen.val) (first : Inputs)

/-! ### Memory after reset (20_memory R57, R66) -/

/-- A byte after reset: the ROM in its extent, the background elsewhere. -/
theorem State.byteAt_boot (a : Nat) :
    (State.boot cfg rom first).byteAt a =
      if 0x200 ≤ a then (rom.toList[a - 0x200]?).getD (Memory.background cfg.font a)
      else Memory.background cfg.font a := by
  have hlen := cfg.romLen.isLt
  exact Memory.read_writeList Memory.wf_nil rom.toList romBase a (by simp [romBase, memSize]; omega)

theorem State.byteAt_boot_rom (k : Fin cfg.romLen.val) :
    (State.boot cfg rom first).byteAt (0x200 + k.val) = rom[k] := by
  rw [State.byteAt_boot, if_pos (Nat.le_add_right _ _), Nat.add_sub_cancel_left]
  simp

theorem State.byteAt_boot_of_outside_rom {a : Nat} (h : a < 0x200 ∨ 0x200 + cfg.romLen.val ≤ a) :
    (State.boot cfg rom first).byteAt a = Memory.background cfg.font a := by
  rw [State.byteAt_boot]
  split_ifs with hle
  · rw [List.getElem?_eq_none (by simp; omega)]
    rfl
  · rfl

theorem Memory.background_font (font : Vector Byte 80) (k : Fin 80) :
    Memory.background font (0x50 + k.val) = font[k] := by
  simp [Memory.background, fontStart]

theorem Memory.background_of_outside_font (font : Vector Byte 80) {a : Nat} (h : a < 0x50 ∨ 0xA0 ≤ a) :
    Memory.background font a = 0 := by
  unfold Memory.background fontStart
  split_ifs with hle
  · rw [Vector.getElem?_eq_none (by omega)]
    rfl
  · rfl

/-! ### The rest of the state after reset -/

theorem State.halted_boot : (State.boot cfg rom first).halted = true ↔ cfg.romLen.val = 0 := by
  rw [State.halted_iff]
  change 0x200 + cfg.romLen.val ≤ 0x200 ↔ _
  omega

theorem State.reg_boot (r : Reg) : (State.boot cfg rom first).reg r = 0 := by
  simp [State.reg, State.boot, State.reset]

theorem State.currentKey_boot : (State.boot cfg rom first).currentKey = none := rfl

theorem Inv.boot : Inv (State.boot cfg rom first) where
  memoryCanonical := Memory.writeList_wf Memory.wf_nil _ _
  timerNotAhead := Nat.zero_le _
  keysNotAhead := by simp [State.boot, State.reset]
  frameNotFar := Nat.zero_le _
  waitCounterLegal := .inl rfl
  faultOutOfRange := by simp [State.boot, State.reset]
  oneEvent := Nat.zero_le _

end

theorem State.reset_eq_boot : ∃ rom first, State.reset = State.boot resetConfig rom first :=
  ⟨Vector.emptyWithCapacity 0, ⟨0, 0, 0⟩, rfl⟩

/-! ### The obligations -/

/-- Settles O15: every clause is about zeros, but the canonical form, which the ROM's bytes keep. -/
theorem resetMeetsTheInvariant : Obligations.ResetMeetsTheInvariant := by
  refine ⟨Inv.boot, ?_⟩
  obtain ⟨rom, first, heq⟩ := State.reset_eq_boot
  exact heq ▸ Inv.boot resetConfig rom first

/-- Settles O22: memory is the ROM over the background, and everything else is the reset record. -/
theorem resetState : Obligations.ResetState := by
  refine ⟨fun cfg rom first => ⟨fun k => ?_, State.byteAt_boot_rom cfg rom first, fun a ha => ?_,
    State.reg_boot cfg rom first, rfl, rfl, rfl, fun k => ?_, rfl, rfl, Display.cell_clear, rfl, rfl, fun k => ?_,
    rfl, rfl, rfl, ⟨rfl, rfl, rfl, rfl⟩, rfl, State.halted_boot cfg rom first, rfl,
    State.currentKey_boot cfg rom first⟩, fun s rom => ⟨s.inputs, s.cycle, rfl⟩, State.reset_eq_boot⟩
  · rw [State.byteAt_boot_of_outside_rom _ _ _ (by omega), Memory.background_font]
  · rw [State.byteAt_boot_of_outside_rom _ _ _ (by omega), Memory.background_of_outside_font _ (by omega)]
  · simp [State.boot, State.reset]
  · simp [State.boot, State.reset]

end Sys2Proof.Machine
end

section
/-! PROOFS. Arithmetic with a flag, shifts and the random byte (42_alu R136 to R145): the result, then the flag. -/

namespace Sys2Proof.Machine

/-! ### The flags as numbers (10_state R23) -/

theorem flagByte_toNat (p : Prop) [Decidable p] : (flagByte (decide p)).toNat = if p then 1 else 0 := by
  by_cases h : p <;> simp [flagByte, h]

theorem carryFlag_toNat (a b : Byte) : (carryFlag a b).toNat = if 255 < a.toNat + b.toNat then 1 else 0 :=
  flagByte_toNat _

theorem notBorrowFlag_toNat (a b : Byte) : (notBorrowFlag a b).toNat = if b.toNat ≤ a.toNat then 1 else 0 :=
  flagByte_toNat _

theorem shiftRightFlag_toNat (src : Byte) : (shiftRightFlag src).toNat = src.toNat % 2 := by
  rw [shiftRightFlag, BitVec.toNat_setWidth_of_le (by decide), BitVec.extractLsb'_toNat]
  rfl

theorem shiftLeftFlag_toNat (src : Byte) : (shiftLeftFlag src).toNat = src.toNat / 128 := by
  have hsrc := src.isLt
  rw [shiftLeftFlag, BitVec.toNat_setWidth_of_le (by decide), BitVec.extractLsb'_toNat, Nat.shiftRight_eq_div_pow]
  omega

/-! ### The results as numbers -/

/-- The 8-bit difference is the integer difference modulo 256. -/
theorem toNat_sub_eq_emod (a b : Byte) : ((a - b).toNat : Int) = ((a.toNat : Int) - b.toNat) % 256 := by
  have ha := a.isLt
  have hb := b.isLt
  rw [BitVec.toNat_sub]
  omega

theorem toNat_shiftRight_one (src : Byte) : (src >>> 1).toNat = src.toNat / 2 := by
  simp [Nat.shiftRight_eq_div_pow]

theorem toNat_shiftLeft_one (src : Byte) : (src <<< 1).toNat = src.toNat * 2 % 256 := by
  simp [Nat.shiftLeft_eq]

/-! ### The registers after a result and a flag (42_alu R140) -/

section
variable (s : State)

theorem State.reg_writeResultFlag_flag (x : Reg) (r f : Byte) : (s.writeResultFlag x r f).reg VF = f := by
  rw [s.reg_writeResultFlag, if_pos rfl]

theorem State.reg_writeResultFlag_same {x : Reg} (h : x ≠ VF) (r f : Byte) : (s.writeResultFlag x r f).reg x = r := by
  rw [s.reg_writeResultFlag, if_neg h, if_pos rfl]

theorem State.regsKeptBut_writeResultFlag (x : Reg) (r f : Byte) :
    RegsKeptBut [x, VF] s (s.writeResultFlag x r f) := by
  intro y hy
  obtain ⟨hx, hf⟩ : y ≠ x ∧ y ≠ VF := by simpa using hy
  rw [s.reg_writeResultFlag, if_neg hf, if_neg hx]

variable {s}

/-- What every result with a flag does, whatever instruction makes it. -/
theorem exists_next_of_exec_writeResultFlag {i : Instr} {x : Reg} {r f : Byte}
    (h : exec i s = .next (s.writeResultFlag x r f)) :
    ∃ t, exec i s = .next t ∧ t.reg VF = f ∧ (x ≠ VF → t.reg x = r) ∧ RegsKeptBut [x, VF] s t ∧
      OnlyChanges [.regs] s t :=
  ⟨_, h, s.reg_writeResultFlag_flag x r f, fun hx => s.reg_writeResultFlag_same hx r f,
    s.regsKeptBut_writeResultFlag x r f, s.onlyChanges_writeResultFlag x r f⟩

/-- The same, with the flag and the result given as numbers. -/
theorem exists_next_of_exec_writeResultFlag_toNat {i : Instr} {x : Reg} {r f : Byte} {flag result : Nat}
    (h : exec i s = .next (s.writeResultFlag x r f)) (hf : f.toNat = flag) (hr : r.toNat = result) :
    ∃ t, exec i s = .next t ∧ (t.reg VF).toNat = flag ∧ (x ≠ VF → (t.reg x).toNat = result) ∧
      RegsKeptBut [x, VF] s t ∧ OnlyChanges [.regs] s t := by
  obtain ⟨t, hexec, hflag, hres, hkept⟩ := exists_next_of_exec_writeResultFlag h
  exact ⟨t, hexec, hflag ▸ hf, fun hx => hres hx ▸ hr, hkept⟩

theorem exists_next_of_exec_sub {i : Instr} {x : Reg} {a b : Byte}
    (h : exec i s = .next (s.writeResultFlag x (a - b) (notBorrowFlag a b))) :
    ∃ t, exec i s = .next t ∧ (t.reg VF).toNat = (if b.toNat ≤ a.toNat then 1 else 0) ∧
      (x ≠ VF → ((t.reg x).toNat : Int) = (a.toNat - b.toNat : Int) % 256) ∧
      RegsKeptBut [x, VF] s t ∧ OnlyChanges [.regs] s t := by
  obtain ⟨t, hexec, hflag, hres, hkept⟩ := exists_next_of_exec_writeResultFlag h
  exact ⟨t, hexec, hflag ▸ notBorrowFlag_toNat a b, fun hx => hres hx ▸ toNat_sub_eq_emod a b, hkept⟩

/-- With X = 15 the flag stays and is the only register written. -/
theorem exists_next_of_exec_flag_last {i : Instr} {r f : Byte} {flag : Nat}
    (h : exec i s = .next (s.writeResultFlag VF r f)) (hf : f.toNat = flag) :
    ∃ t, exec i s = .next t ∧ (t.reg VF).toNat = flag ∧ RegsKeptBut [VF] s t ∧ OnlyChanges [.regs] s t := by
  obtain ⟨t, hexec, hflag, -, hregs, hrest⟩ := exists_next_of_exec_writeResultFlag h
  exact ⟨t, hexec, hflag ▸ hf, fun y hy => hregs y (by simpa using hy), hrest⟩

theorem State.writeLogic_of_vfReset (h : s.cfg.quirks.vfReset = true) (x : Reg) (r : Byte) :
    s.writeLogic x r = s.writeResultFlag x r 0 := by
  simp [State.writeLogic, h]

/-- With `vf_reset` on, a logic result in `VF` is overwritten by the flag 0. -/
theorem exists_next_of_exec_logic_flag_last {i : Instr} {r : Byte} (hreset : s.cfg.quirks.vfReset = true)
    (h : exec i s = .next (s.writeLogic VF r)) :
    ∃ t, exec i s = .next t ∧ (t.reg VF).toNat = 0 ∧ RegsKeptBut [VF] s t ∧ OnlyChanges [.regs] s t := by
  rw [State.writeLogic_of_vfReset hreset] at h
  exact exists_next_of_exec_flag_last h rfl

end

/-! ### The obligations -/

/-- Settles O33: a result with a flag, the 8-bit sum and the carry. -/
theorem addWithCarryOut : Obligations.AddWithCarryOut := by
  intro x y s
  exact ⟨decodeWord_addReg x y,
    exists_next_of_exec_writeResultFlag_toNat (exec_addReg s x y) (carryFlag_toNat _ _) (BitVec.toNat_add _ _)⟩

/-- Settles O34: both instructions are a result with a flag, the difference and the not-borrow of their operands. -/
theorem subtractWithNotBorrow : Obligations.SubtractWithNotBorrow := by
  intro x y s
  exact ⟨⟨decodeWord_subReg x y, exists_next_of_exec_sub (exec_subReg s x y)⟩,
    ⟨decodeWord_subnReg x y, exists_next_of_exec_sub (exec_subnReg s x y)⟩⟩

/-- Settles O35: both instructions are a result with a flag, the shifted source and the bit shifted out. -/
theorem shiftsByOne : Obligations.ShiftsByOne := by
  intro x y s
  exact ⟨⟨decodeWord_shrReg x y, exists_next_of_exec_writeResultFlag_toNat (exec_shrReg s x y)
      (shiftRightFlag_toNat _) (toNat_shiftRight_one _)⟩,
    ⟨decodeWord_shlReg x y, exists_next_of_exec_writeResultFlag_toNat (exec_shlReg s x y)
      (shiftLeftFlag_toNat _) (toNat_shiftLeft_one _)⟩⟩

/-- Settles O36: a plain register write of the masked byte. -/
theorem randomByteIsMasked : Obligations.RandomByteIsMasked := by
  intro x nn s
  obtain ⟨t, hexec, hreg, hkept⟩ := exists_next_of_exec_setReg (exec_rnd s x nn)
  exact ⟨decodeWord_rnd x nn, t, hexec, fun _ _ => hreg ▸ BitVec.getLsbD_and, hkept⟩

/-- Settles O37: the flag's number for each instruction, computed from the operands before the write. -/
theorem flagIsWrittenLast : Obligations.FlagIsWrittenLast := by
  intro y s f b src i flag h
  have hsrc : (s.shiftSource VF y).toNat = src := apply_ite BitVec.toNat _ _ _
  rcases h with ⟨rfl, rfl⟩ | ⟨rfl, rfl⟩ | ⟨rfl, rfl⟩ | ⟨rfl, rfl⟩ | ⟨rfl, rfl⟩ | ⟨hreset, rfl, hi⟩
  · exact exists_next_of_exec_flag_last (exec_addReg s VF y) (carryFlag_toNat _ _)
  · exact exists_next_of_exec_flag_last (exec_subReg s VF y) (notBorrowFlag_toNat _ _)
  · exact exists_next_of_exec_flag_last (exec_subnReg s VF y) (notBorrowFlag_toNat _ _)
  · exact exists_next_of_exec_flag_last (exec_shrReg s VF y) (hsrc ▸ shiftRightFlag_toNat _)
  · exact exists_next_of_exec_flag_last (exec_shlReg s VF y) (hsrc ▸ shiftLeftFlag_toNat _)
  · rcases hi with rfl | rfl | rfl
    · exact exists_next_of_exec_logic_flag_last hreset (exec_orReg s VF y)
    · exact exists_next_of_exec_logic_flag_last hreset (exec_andReg s VF y)
    · exact exists_next_of_exec_logic_flag_last hreset (exec_xorReg s VF y)

end Sys2Proof.Machine
end

section
/-! PROOFS. Control flow (41_control_flow R111, R113, R118): the jump with an offset, the call, the return, and the return
stack they use (10_state R26 to R28). -/

namespace Sys2Proof.Machine

/-! ### The target of a jump with an offset (41_control_flow R118) -/

/-- X, "used twice", is the top nibble of NNN as a number. -/
theorem extractLsb'_top_nibble (nnn : Imm12) : nnn.extractLsb' 8 4 = BitVec.ofNat 4 (nnn.toNat / 256) := by
  apply BitVec.eq_of_toNat_eq
  simp [Nat.shiftRight_eq_div_pow]

/-- The sum of 12 bits and a byte fits 16 bits. -/
theorem toNat_zext16_add_zext16 (nnn : Imm12) (d : Byte) : (zext16 nnn + zext16 d).toNat = nnn.toNat + d.toNat := by
  have hnnn := nnn.isLt
  have hd := d.isLt
  rw [BitVec.toNat_add, BitVec.toNat_setWidth_of_le (by decide), BitVec.toNat_setWidth_of_le (by decide)]
  omega

theorem State.jumpTarget_toNat (s : State) (x : Reg) (nnn : Imm12) :
    (s.jumpTarget x nnn).toNat = nnn.toNat + (if s.cfg.quirks.jumpingWithRegister then s.reg x else s.reg 0).toNat := by
  unfold State.jumpTarget
  split_ifs
  · exact toNat_zext16_add_zext16 nnn _
  · exact toNat_zext16_add_zext16 nnn _

/-! ### The return stack -/

section
variable (s : State)

theorem State.onlyChanges_push_room (h : s.sp.val < 16) (d : Word) : OnlyChanges [.stack] s (s.push d) := by
  rw [s.push_room h]
  exact onlyChanges_stack s _ _

theorem State.onlyChanges_dropTop_some (h : 0 < s.sp.val) : OnlyChanges [.stack] s s.dropTop := by
  rw [s.dropTop_some h]
  exact onlyChanges_stack s _ _

theorem State.sp_push_room (h : s.sp.val < 16) (d : Word) : (s.push d).sp.val = s.sp.val + 1 := by
  rw [s.push_room h]

theorem State.stack_push_room (h : s.sp.val < 16) (d : Word) : (s.push d).stack = s.stack.set s.sp.val d h := by
  rw [s.push_room h]

/-- A pop lowers the count, which stays 0 on an empty stack. -/
theorem State.sp_dropTop : s.dropTop.sp.val = s.sp.val - 1 := by
  by_cases h : 0 < s.sp.val
  · rw [s.dropTop_some h]
  · rw [s.dropTop_empty (by omega), State.reportStackUnderflow_sp]
    omega

/-- A pop keeps the entries. -/
theorem State.stack_dropTop : s.dropTop.stack = s.stack := by
  by_cases h : 0 < s.sp.val
  · rw [s.dropTop_some h]
  · rw [s.dropTop_empty (by omega), State.reportStackUnderflow_stack]

/-- The value a pop returns is the top entry. -/
theorem State.popped_eq (h : 0 < s.sp.val) : s.popped = s.stack[s.sp.val - 1]'(by omega) := by
  simp [State.popped, h]

/-! ### Several pushes and pops -/

/-- After pushes with room, the count has grown by their number. -/
theorem State.sp_foldl_push (as : List Word) (h : s.sp.val + as.length ≤ 16) :
    (as.foldl (fun q a => q.push a) s).sp.val = s.sp.val + as.length := by
  induction as generalizing s with
  | nil => rfl
  | cons a as ih =>
    rw [List.length_cons] at h
    have hsp := s.sp_push_room (by omega) a
    rw [List.foldl_cons, ih (s.push a) (by omega), hsp, List.length_cons]
    omega

/-- After pushes with room, the entries held are the old ones and then the addresses pushed, in their order. -/
theorem State.stack_foldl_push (as : List Word) (h : s.sp.val + as.length ≤ 16) {j : Nat}
    (hj : j < s.sp.val + as.length) :
    (as.foldl (fun q a => q.push a) s).stack[j]? = if j < s.sp.val then s.stack[j]? else as[j - s.sp.val]? := by
  induction as generalizing s with
  | nil => rw [if_pos (by simpa using hj)]; rfl
  | cons a as ih =>
    rw [List.length_cons] at h hj
    have hroom : s.sp.val < 16 := by omega
    have hsp := s.sp_push_room hroom a
    rw [List.foldl_cons, ih (s.push a) (by omega) (by omega), hsp, s.stack_push_room hroom, Vector.getElem?_set]
    rcases Nat.lt_trichotomy j s.sp.val with hlt | heq | hgt
    · rw [if_pos (by omega), if_neg (by omega), if_pos hlt]
    · subst heq
      simp
    · rw [if_neg (by omega), if_neg (by omega), List.getElem?_cons, if_neg (by omega), Nat.sub_sub]

/-- Pops lower the count one by one and keep the entries. -/
theorem State.repeat_dropTop (k : Nat) :
    (Nat.repeat State.dropTop k s).sp.val = s.sp.val - k ∧ (Nat.repeat State.dropTop k s).stack = s.stack := by
  induction k with
  | zero => exact ⟨rfl, rfl⟩
  | succ k ih =>
    obtain ⟨hsp, hstack⟩ := ih
    exact ⟨(State.sp_dropTop _).trans (by omega), (State.stack_dropTop _).trans hstack⟩

end

/-! ### The obligations -/

/-- Settles O26: the target is a sum that fits 16 bits. -/
theorem jumpsWithOffset : Obligations.JumpsWithOffset := by
  intro nnn s
  refine ⟨decodeWord_jpV0 nnn, _, exec_jpV0 s _ nnn, ?_, s.onlyChanges_setPc _⟩
  rw [← extractLsb'_top_nibble]
  exact s.jumpTarget_toNat _ nnn

/-- Settles O27: a push with room or a reported one, then a write of `PC`. -/
theorem callPushesAndJumps : Obligations.CallPushesAndJumps := by
  intro nnn s
  refine ⟨decodeWord_call nnn, fun hroom => ?_, fun hfull => ?_⟩
  · refine ⟨_, exec_call s nnn, immAddress_toNat nnn, s.sp_push_room hroom _, fun k => ?_,
      ((s.onlyChanges_push_room hroom _).trans (State.onlyChanges_setPc _ _)).mono (by decide)⟩
    rw [State.setPc_stack, s.stack_push_room hroom]
    simp only [Fin.getElem_fin, Vector.getElem_set, eq_comm]
  · rw [exec_call, s.push_full hfull]
    exact ⟨_, rfl, immAddress_toNat nnn, rfl,
      (s.onlyChanges_reportStackOverflow.trans (State.onlyChanges_setPc _ _)).mono (by decide)⟩

/-- Settles O28: a pop of an entry or of an empty stack, then a write of `PC`. -/
theorem returnPops : Obligations.ReturnPops := by
  refine ⟨decodeWord_ret, fun s => ⟨fun hsome => ?_, fun hempty => ?_⟩⟩
  · refine ⟨_, exec_ret s, ?_, s.stack_dropTop, fun k hk => ?_,
      ((s.onlyChanges_dropTop_some hsome).trans (State.onlyChanges_setPc _ _)).mono (by decide)⟩
    · rw [State.setPc_sp, s.sp_dropTop]
      omega
    · rw [State.setPc_pc, s.popped_eq hsome]
      simp only [← hk, Nat.add_sub_cancel, Fin.getElem_fin]
  · rw [exec_ret, s.dropTop_empty hempty, s.popped_empty hempty]
    exact ⟨_, rfl, rfl, rfl, (s.onlyChanges_reportStackUnderflow.trans (State.onlyChanges_setPc _ _)).mono (by decide)⟩

/-- Settles O29: the pushes lay the addresses out upwards, and the pops read the entries downwards. -/
theorem popsReversePushes : Obligations.PopsReversePushes := by
  intro as s hroom pushed
  have hsp : pushed.sp.val = s.sp.val + as.length := s.sp_foldl_push as hroom
  refine ⟨hsp, fun k hk => ?_⟩
  obtain ⟨hspk, hstackk⟩ := pushed.repeat_dropTop k
  obtain ⟨hspk', -⟩ := pushed.repeat_dropTop (k + 1)
  refine ⟨?_, by omega⟩
  have hentry := s.stack_foldl_push as hroom (j := s.sp.val + (as.length - 1 - k)) (by omega)
  rw [if_neg (by omega), Nat.add_sub_cancel_left, List.getElem?_eq_getElem (by omega)] at hentry
  rw [State.popped_eq _ (by omega)]
  apply Option.some.inj
  rw [← hentry, ← Vector.getElem?_eq_getElem, hstackk, hspk, hsp]
  congr 1
  omega

end Sys2Proof.Machine
end

section
/-! PROOFS. The index register and memory (43_index_memory): `I` from a register, the decimal digits, the block store and
load, and a stored instruction fetched (20_memory R62). -/

namespace Sys2Proof.Machine

section
variable (s : State)

/-! ### `I` from a register (43_index_memory R151, R152) -/

theorem toNat_zext16 (d : Byte) : (zext16 d).toNat = d.toNat := BitVec.toNat_setWidth_of_le (by decide)

/-- The last glyph address of a byte is far from 65536. -/
theorem glyphAddress_toNat (d : Byte) : (glyphAddress d).toNat = 0x50 + 5 * d.toNat := by
  have hd := d.isLt
  rw [glyphAddress, fontStart, BitVec.toNat_add, BitVec.toNat_mul, toNat_zext16]
  change (0x50 + 5 * d.toNat % 65536) % 65536 = _
  omega

theorem length_decimalDigits (d : Byte) : (decimalDigits d).length = 3 := rfl

/-! ### Bytes after a store to consecutive addresses -/

variable {s}

theorem State.byteAt_writeBytes_at (hm : Memory.wf s.cfg.font s.mem = true) {ds : List Byte} {a k : Nat}
    (h : a + ds.length ≤ 4096) {d : Byte} (hd : ds[k]? = some d) : (s.writeBytes a ds).byteAt (a + k) = d := by
  rw [s.byteAt_writeBytes hm ds a (a + k) h, if_pos (Nat.le_add_right _ _), Nat.add_sub_cancel_left, hd]
  rfl

/-- The byte stored is given as a number. -/
theorem State.toNat_byteAt_writeBytes_at (hm : Memory.wf s.cfg.font s.mem = true) {ds : List Byte} {a k n : Nat}
    (h : a + ds.length ≤ 4096) (hd : ds[k]? = some (BitVec.ofNat 8 n)) (hn : n < 256) :
    ((s.writeBytes a ds).byteAt (a + k)).toNat = n := by
  rw [State.byteAt_writeBytes_at hm h hd, BitVec.toNat_ofNat, Nat.mod_eq_of_lt hn]

theorem State.byteAt_writeBytes_of_outside (hm : Memory.wf s.cfg.font s.mem = true) {ds : List Byte} {a b : Nat}
    (h : a + ds.length ≤ 4096) (hb : b < a ∨ a + ds.length ≤ b) : (s.writeBytes a ds).byteAt b = s.byteAt b := by
  rw [s.byteAt_writeBytes hm ds a b h]
  split_ifs with hle
  · rw [List.getElem?_eq_none (by omega)]
    rfl
  · rfl

/-- Byte r of the stored registers is `V[r]`. -/
theorem State.getElem?_firstRegs_toNat {x r : Reg} (h : r.toNat ≤ x.toNat) :
    (s.firstRegs (x.toNat + 1))[r.toNat]? = some (s.reg r) := by
  rw [s.getElem?_firstRegs, if_pos (by omega), BitVec.ofNat_toNat, BitVec.setWidth_eq]

theorem State.byteAt_bumpIndex (s : State) (x : Reg) (a : Nat) : (s.bumpIndex x).byteAt a = s.byteAt a := by
  rw [s.bumpIndex_frame]
  rfl

/-- `I` after the step, as a number (43_index_memory R155, R157). -/
theorem State.toNat_index_bumpIndex (s : State) (x : Reg) : (s.bumpIndex x).index.toNat =
    if s.cfg.quirks.memoryIncrement then (s.index.toNat + (memIncOf s.cfg x).toNat) % 65536 else s.index.toNat := by
  rw [s.index_bumpIndex]
  split_ifs
  · exact BitVec.toNat_add _ _
  · rfl

/-! ### What a checked instruction does (20_memory R55) -/

/-- The range leaves memory: the fault and nothing else. -/
theorem exists_next_of_exec_checked_of_exceeds {i : Instr} {len : Nat} {body : State}
    (h : exec i s = .next (s.checked s.index.toNat len body)) (hlen : 0 < len) (hover : 4096 < s.index.toNat + len) :
    ∃ t, exec i s = .next t ∧ (∃ a, t.fault = some a ∧ a.toNat = max s.index.toNat 4096) ∧
      OnlyChanges [.fault] s t := by
  rw [s.checked_of_exceeds hlen hover] at h
  have hindex := s.index.isLt
  refine ⟨_, h, ⟨_, rfl, ?_⟩, s.onlyChanges_raiseAddressRangeFault _⟩
  rw [BitVec.toNat_ofNat]
  omega

/-- The range fits: the body. -/
theorem exec_checked_of_fits {i : Instr} {len : Nat} {body : State}
    (h : exec i s = .next (s.checked s.index.toNat len body)) (hfits : s.index.toNat + len ≤ 4096) :
    exec i s = .next body := by
  rw [h, s.checked_of_fits (.inr hfits)]

theorem exec_storeRegs_of_fits {x : Reg} (h : s.index.toNat + x.toNat ≤ 4095) :
    exec (.storeRegs x) s = .next ((s.writeBytes s.index.toNat (s.firstRegs (x.toNat + 1))).bumpIndex x) :=
  exec_checked_of_fits (exec_storeRegs s x) (by omega)

theorem exec_loadRegs_of_fits {x : Reg} (h : s.index.toNat + x.toNat ≤ 4095) :
    exec (.loadRegs x) s = .next ((s.loadFirstRegs s.index.toNat (x.toNat + 1)).bumpIndex x) :=
  exec_checked_of_fits (exec_loadRegs s x) (by omega)

/-- The bytes `FX55` stores. -/
theorem byteAt_of_exec_storeRegs {t : State} {x r : Reg} (hm : Memory.wf s.cfg.font s.mem = true)
    (hfits : s.index.toNat + x.toNat ≤ 4095) (h : exec (.storeRegs x) s = .next t) (hr : r.toNat ≤ x.toNat) :
    t.byteAt (s.index.toNat + r.toNat) = s.reg r := by
  cases (exec_storeRegs_of_fits hfits).symm.trans h
  rw [State.byteAt_bumpIndex]
  exact State.byteAt_writeBytes_at hm (by rw [State.length_firstRegs]; omega) (State.getElem?_firstRegs_toNat hr)

/-- The registers `FX65` loads. -/
theorem reg_of_exec_loadRegs {t : State} {x : Reg} (hfits : s.index.toNat + x.toNat ≤ 4095)
    (h : exec (.loadRegs x) s = .next t) (r : Reg) :
    t.reg r = if r.toNat ≤ x.toNat then s.byteAt (s.index.toNat + r.toNat) else s.reg r := by
  have hx := x.isLt
  cases (exec_loadRegs_of_fits hfits).symm.trans h
  rw [State.reg_bumpIndex, s.reg_loadFirstRegs _ (by omega)]
  simp only [Nat.lt_succ_iff]

end

/-! ### The obligations -/

/-- Settles O39: both instructions write `I` alone, one with a wrapping sum, one with a sum that fits. -/
theorem indexTakesARegister : Obligations.IndexTakesARegister := by
  intro x s
  refine ⟨⟨decodeWord_addIndex x, _, exec_addIndex s x, ?_, s.onlyChanges_setIndex _⟩,
    ⟨decodeWord_ldFont x, _, exec_ldFont s x, glyphAddress_toNat _, s.onlyChanges_setIndex _⟩⟩
  rw [State.setIndex_index, BitVec.toNat_add, toNat_zext16]

/-- Settles O40: the three digits stored from `I` up, or the fault of a range of three bytes. -/
theorem decimalDigitsAreStored : Obligations.DecimalDigitsAreStored := by
  intro x s
  refine ⟨decodeWord_ldBcd x, fun hm hfits => ?_, fun hover => ?_⟩
  · have hexec := exec_checked_of_fits (exec_ldBcd s x) (by omega)
    have hbyte := (s.reg x).isLt
    have hlen : s.index.toNat + (decimalDigits (s.reg x)).length ≤ 4096 := by
      rw [length_decimalDigits]
      omega
    refine ⟨_, hexec, State.toNat_byteAt_writeBytes_at hm (k := 0) hlen rfl (by omega),
      State.toNat_byteAt_writeBytes_at hm (k := 1) hlen rfl (by omega),
      State.toNat_byteAt_writeBytes_at hm (k := 2) hlen rfl (by omega), fun a ha => ?_, s.onlyChanges_writeBytes _ _⟩
    exact State.byteAt_writeBytes_of_outside hm hlen (by rw [length_decimalDigits]; omega)
  · exact exists_next_of_exec_checked_of_exceeds (exec_ldBcd s x) (by decide) (by omega)

/-- Settles O41: the first registers stored from `I` up and the step of `I`, or the fault of their range. -/
theorem registersAreStored : Obligations.RegistersAreStored := by
  intro x s
  refine ⟨decodeWord_storeRegs x, fun hm hfits => ?_, fun hover => ?_⟩
  · have hexec := exec_storeRegs_of_fits hfits
    refine ⟨_, hexec, fun r hr => byteAt_of_exec_storeRegs hm hfits hexec hr, fun a ha => ?_,
      State.toNat_index_bumpIndex _ x, (s.onlyChanges_writeBytes _ _).trans (State.onlyChanges_bumpIndex _ x)⟩
    rw [State.byteAt_bumpIndex]
    exact State.byteAt_writeBytes_of_outside hm (by rw [State.length_firstRegs]; omega)
      (by rw [State.length_firstRegs]; omega)
  · exact exists_next_of_exec_checked_of_exceeds (exec_storeRegs s x) (by omega) (by omega)

/-- Settles O42: the first registers loaded from `I` up and the step of `I`, or the fault of their range. -/
theorem registersAreLoaded : Obligations.RegistersAreLoaded := by
  intro x s
  refine ⟨decodeWord_loadRegs x, fun hfits => ?_, fun hover => ?_⟩
  · have hexec := exec_loadRegs_of_fits hfits
    refine ⟨_, hexec, reg_of_exec_loadRegs hfits hexec, ?_,
      (s.onlyChanges_loadFirstRegs _ _).trans (State.onlyChanges_bumpIndex _ x)⟩
    rw [State.toNat_index_bumpIndex, s.loadFirstRegs_frame]
  · exact exists_next_of_exec_checked_of_exceeds (exec_loadRegs s x) (by omega) (by omega)

/-- Settles O43: what is loaded at `I + r` is the byte stored there, which is `V[r]`. -/
theorem storeThenLoadRestoresRegisters : Obligations.StoreThenLoadRestoresRegisters := by
  intro x s t u w hm hfits hstore hcfg hmem hindex hload r hr
  have hbyte : u.byteAt (s.index.toNat + r.toNat) = t.byteAt (s.index.toNat + r.toNat) := by
    simp only [State.byteAt, hcfg, hmem]
  rw [← hindex] at hfits
  rw [reg_of_exec_loadRegs hfits hload, if_pos hr, hindex, hbyte]
  exact byteAt_of_exec_storeRegs hm (hindex ▸ hfits) hstore hr

/-- Settles O44: the two bytes at `PC` are the registers stored there. -/
theorem storesAreSeenByTheNextFetch : Obligations.StoresAreSeenByTheNextFetch := by
  intro x s t k hm hfits hstore hk hpc
  have hx := x.isLt
  have hnext : (k + 1).toNat = k.toNat + 1 := by
    rw [BitVec.toNat_add_of_lt (by simp; omega)]
    rfl
  have hhi := byteAt_of_exec_storeRegs (r := k) hm hfits hstore (by omega)
  have hlo := byteAt_of_exec_storeRegs (r := k + 1) hm hfits hstore (by omega)
  rw [hnext, ← Nat.add_assoc] at hlo
  rw [t.fetch_of_fits (by omega), hpc, hhi, hlo]
  rfl

end Sys2Proof.Machine
end

section
/-! PROOFS. Display (44_display): the clear, and the cells a draw toggles, from one pixel to a row to the sprite. -/

namespace Sys2Proof.Machine

/-! ### A part of a draw toggles a set of cells (44_display R173) -/

/-- From `c` to `c'` exactly the cells of `S` are toggled, and an on cell among them sets the collision bit. -/
structure Canvas.Toggles (S : Set (Fin 32 × Fin 64)) (c c' : Canvas) : Prop where
  on_cells : ∀ p ∈ S, Display.cell c'.display p.1 p.2 = !Display.cell c.display p.1 p.2
  off_cells : ∀ p ∉ S, Display.cell c'.display p.1 p.2 = Display.cell c.display p.1 p.2
  hit_iff : c'.hit = true ↔ c.hit = true ∨ ∃ p ∈ S, Display.cell c.display p.1 p.2 = true

section
variable {S T : Set (Fin 32 × Fin 64)} {c c' c'' : Canvas}

theorem Canvas.toggles_self (h : S = ∅) : Canvas.Toggles S c c where
  on_cells p hp := by simp [h] at hp
  off_cells _ _ := rfl
  hit_iff := by simp [h]

theorem Canvas.toggles_plot {y : Fin 32} {x : Fin 64} (h : S = {(y, x)}) : Canvas.Toggles S c (c.plot y x) where
  on_cells p hp := by
    obtain rfl : p = (y, x) := by simpa [h] using hp
    simp [Canvas.plot, Display.cell_flip]
  off_cells p hp := by
    have hne : ¬(p.1 = y ∧ p.2 = x) := fun heq => hp (by simp [h, Prod.ext_iff, heq])
    simp [Canvas.plot, Display.cell_flip, hne]
  hit_iff := by simp [h, Canvas.plot]

/-- Two parts that share no cell. -/
theorem Canvas.Toggles.union (h : Canvas.Toggles S c c') (h' : Canvas.Toggles T c' c'') (hdisj : ∀ p ∈ S, p ∉ T) :
    Canvas.Toggles (S ∪ T) c c'' where
  on_cells := by
    rintro p (hS | hT)
    · rw [h'.off_cells p (hdisj p hS), h.on_cells p hS]
    · rw [h'.on_cells p hT, h.off_cells p fun hS => hdisj p hS hT]
  off_cells p hp := by
    rw [h'.off_cells p fun hT => hp (.inr hT), h.off_cells p fun hS => hp (.inl hS)]
  hit_iff := by
    have hkept : ∀ p ∈ T, Display.cell c'.display p.1 p.2 = Display.cell c.display p.1 p.2 :=
      fun p hT => h.off_cells p fun hS => hdisj p hS hT
    rw [h'.hit_iff, h.hit_iff, or_assoc]
    refine or_congr_right ⟨?_, ?_⟩
    · rintro (⟨p, hp, hon⟩ | ⟨p, hp, hon⟩)
      · exact ⟨p, .inl hp, hon⟩
      · exact ⟨p, .inr hp, hkept p hp ▸ hon⟩
    · rintro ⟨p, hp | hp, hon⟩
      · exact .inl ⟨p, hp, hon⟩
      · exact .inr ⟨p, hp, (hkept p hp).trans hon⟩

/-- The cells of the first k of a sequence of parts. -/
def cellsBelow (k : Nat) (parts : Nat → Set (Fin 32 × Fin 64)) : Set (Fin 32 × Fin 64) := {p | ∃ j < k, p ∈ parts j}

theorem cellsBelow_zero (parts : Nat → Set (Fin 32 × Fin 64)) : cellsBelow 0 parts = ∅ := by
  simp [cellsBelow]

theorem cellsBelow_succ (k : Nat) (parts : Nat → Set (Fin 32 × Fin 64)) :
    cellsBelow (k + 1) parts = cellsBelow k parts ∪ parts k := by
  ext p
  exact Nat.exists_lt_succ_right

/-- One more part, which shares no cell with the parts before it. -/
theorem Canvas.Toggles.succ {k : Nat} {parts : Nat → Set (Fin 32 × Fin 64)}
    (h : Canvas.Toggles (cellsBelow k parts) c c') (h' : Canvas.Toggles (parts k) c' c'')
    (hdisj : ∀ j < k, ∀ p ∈ parts j, p ∉ parts k) : Canvas.Toggles (cellsBelow (k + 1) parts) c c'' := by
  rw [cellsBelow_succ]
  refine h.union h' ?_
  rintro p ⟨j, hj, hp⟩
  exact hdisj j hj p hp

end

/-! ### Different sprite pixels land on different cells -/

theorem targetCol_injective {clipping : Bool} {x0 j k : Nat} {x : Fin 64} (hj : j < 64) (hk : k < 64)
    (h : targetCol clipping (x0 + j) = some x) (h' : targetCol clipping (x0 + k) = some x) : j = k := by
  rw [targetCol_eq_some_iff] at h h'
  split_ifs at h h' <;> omega

theorem targetRow_injective {clipping : Bool} {y0 i k : Nat} {y : Fin 32} (hi : i < 32) (hk : k < 32)
    (h : targetRow clipping (y0 + i) = some y) (h' : targetRow clipping (y0 + k) = some y) : i = k := by
  rw [targetRow_eq_some_iff] at h h'
  split_ifs at h h' <;> omega

/-! ### One sprite row -/

/-- The cell column j of a sprite row lands on, when its bit is set and the column is not clipped. -/
def colCells (clipping : Bool) (y : Fin 32) (x0 : Nat) (bits : Byte) (j : Nat) : Set (Fin 32 × Fin 64) :=
  {p | p.1 = y ∧ targetCol clipping (x0 + j) = some p.2 ∧ bits.getLsbD (7 - j) = true}

theorem colCells_eq_empty_of_clipped {clipping : Bool} {y : Fin 32} {x0 j : Nat} {bits : Byte}
    (h : targetCol clipping (x0 + j) = none) : colCells clipping y x0 bits j = ∅ := by
  simp [colCells, h]

theorem colCells_eq_empty_of_clear {clipping : Bool} {y : Fin 32} {x0 j : Nat} {bits : Byte}
    (h : ¬bits.getLsbD (7 - j) = true) : colCells clipping y x0 bits j = ∅ := by
  simp [colCells, h]

theorem colCells_eq_singleton {clipping : Bool} {y : Fin 32} {x0 j : Nat} {bits : Byte} {x : Fin 64}
    (h : targetCol clipping (x0 + j) = some x) (hbit : bits.getLsbD (7 - j) = true) :
    colCells clipping y x0 bits j = {(y, x)} := by
  ext p
  simp [colCells, h, hbit, Prod.ext_iff, eq_comm]

theorem toggles_drawCols (clipping : Bool) (y : Fin 32) (x0 : Nat) (bits : Byte) {k : Nat} (hk : k ≤ 8) (c : Canvas) :
    Canvas.Toggles (cellsBelow k (colCells clipping y x0 bits)) c (drawCols clipping y x0 bits k c) := by
  induction k with
  | zero => exact Canvas.toggles_self (cellsBelow_zero _)
  | succ k ih =>
    refine (ih (by omega)).succ ?_ ?_
    · rw [drawCols]
      split
      case h_1 hclipped => exact Canvas.toggles_self (colCells_eq_empty_of_clipped hclipped)
      case h_2 x hx =>
        split_ifs with hbit
        · exact Canvas.toggles_plot (colCells_eq_singleton hx hbit)
        · exact Canvas.toggles_self (colCells_eq_empty_of_clear hbit)
    · rintro j hj p ⟨-, hcol, -⟩ ⟨-, hcol', -⟩
      have := targetCol_injective (by omega) (by omega) hcol hcol'
      omega

/-! ### The sprite -/

/-- The cells sprite row i lands on, when the row is not clipped. -/
def State.rowCells (s : State) (x0 y0 base i : Nat) : Set (Fin 32 × Fin 64) :=
  {p | targetRow s.cfg.quirks.clipping (y0 + i) = some p.1 ∧
    p ∈ cellsBelow 8 (colCells s.cfg.quirks.clipping p.1 x0 (s.byteAt (base + i)))}

section
variable (s : State)

theorem State.rowCells_eq_empty_of_clipped {x0 y0 base i : Nat}
    (h : targetRow s.cfg.quirks.clipping (y0 + i) = none) : s.rowCells x0 y0 base i = ∅ := by
  simp [State.rowCells, h]

theorem State.rowCells_eq_cellsBelow {x0 y0 base i : Nat} {y : Fin 32}
    (h : targetRow s.cfg.quirks.clipping (y0 + i) = some y) :
    s.rowCells x0 y0 base i = cellsBelow 8 (colCells s.cfg.quirks.clipping y x0 (s.byteAt (base + i))) := by
  ext p
  simp only [State.rowCells, cellsBelow, colCells, h, Set.mem_ofPred_eq, Option.some.injEq]
  grind

theorem State.toggles_drawRows (x0 y0 base : Nat) {k : Nat} (hk : k ≤ 16) (c : Canvas) :
    Canvas.Toggles (cellsBelow k (s.rowCells x0 y0 base)) c (s.drawRows x0 y0 base k c) := by
  induction k with
  | zero => exact Canvas.toggles_self (cellsBelow_zero _)
  | succ k ih =>
    refine (ih (by omega)).succ ?_ ?_
    · rw [State.drawRows]
      split
      case h_1 hclipped => exact Canvas.toggles_self (s.rowCells_eq_empty_of_clipped hclipped)
      case h_2 y hy =>
        rw [s.rowCells_eq_cellsBelow hy]
        exact toggles_drawCols _ _ _ _ (Nat.le_refl 8) _
    · rintro i hi p ⟨hrow, -⟩ ⟨hrow', -⟩
      have := targetRow_injective (by omega) (by omega) hrow hrow'
      omega

/-- The cells of the drawing loop are those a set bit of the sprite lands on (44_display R170, R173). -/
theorem spriteCovers_iff (x y : Reg) (n : Imm4) (p : Fin 32 × Fin 64) :
    SpriteCovers s x y n p.1 p.2 ↔
      p ∈ cellsBelow n.toNat (s.rowCells (s.spriteX x) (s.spriteY y) s.index.toNat) := by
  simp only [SpriteCovers, landsOn, cellsBelow, State.rowCells, colCells, Set.mem_ofPred_eq, targetRow_eq_some_iff,
    targetCol_eq_some_iff, s.spriteX_eq, s.spriteY_eq]
  cases s.cfg.quirks.clipping <;> grind

theorem State.toggles_drawSprite (x y : Reg) (n : Imm4) :
    Canvas.Toggles {p | SpriteCovers s x y n p.1 p.2} ⟨s.display, false⟩
      (s.drawRows (s.spriteX x) (s.spriteY y) s.index.toNat n.toNat ⟨s.display, false⟩) := by
  have hcells := Set.ext fun p => (spriteCovers_iff s x y n p)
  have hn := n.isLt
  exact hcells ▸ s.toggles_drawRows _ _ _ (by omega) _

/-! ### The state after a draw -/

theorem State.display_drawSprite (x y : Reg) (n : Imm4) :
    (s.drawSprite x y n).display =
      (s.drawRows (s.spriteX x) (s.spriteY y) s.index.toNat n.toNat ⟨s.display, false⟩).display := by
  rw [s.drawSprite_frame]
  rfl

theorem State.reg_drawSprite_flag (x y : Reg) (n : Imm4) :
    (s.drawSprite x y n).reg VF =
      collisionFlag (s.drawRows (s.spriteX x) (s.spriteY y) s.index.toNat n.toNat ⟨s.display, false⟩).hit := by
  rw [s.drawSprite_frame]
  exact s.reg_setReg_same VF _

/-- The flag is 1 exactly when a covered cell was on, else 0 (44_display R172). -/
theorem State.collision_drawSprite (x y : Reg) (n : Imm4) :
    ((∃ row col, SpriteCovers s x y n row col ∧ Display.cell s.display row col = true) →
      (s.drawSprite x y n).reg VF = 1) ∧
    ((¬∃ row col, SpriteCovers s x y n row col ∧ Display.cell s.display row col = true) →
      (s.drawSprite x y n).reg VF = 0) := by
  have hhit := (s.toggles_drawSprite x y n).hit_iff
  simp only [Bool.false_eq_true, false_or, Prod.exists, Set.mem_ofPred_eq] at hhit
  rw [s.reg_drawSprite_flag, ← hhit]
  exact ⟨fun hit => by rw [hit]; rfl, fun hit => by rw [Bool.eq_false_iff.mpr hit]; rfl⟩

/-- What the cells a draw lands on depend on. -/
theorem spriteCovers_congr {s u : State} {x y : Reg} (hx : u.reg x = s.reg x) (hy : u.reg y = s.reg y)
    (hindex : u.index = s.index) (hbyte : ∀ a, u.byteAt a = s.byteAt a) (hcfg : u.cfg = s.cfg) (n : Imm4)
    (row : Fin 32) (col : Fin 64) : SpriteCovers u x y n row col ↔ SpriteCovers s x y n row col := by
  simp only [SpriteCovers, landsOn, hx, hy, hindex, hbyte, hcfg]

end

theorem State.drawDeferred_eq_false {s : State}
    (h : ¬(s.cfg.quirks.displayWait = true ∧ s.displayWaitCounter ≠ 0)) : s.drawDeferred = false :=
  Bool.eq_false_iff.mpr (mt s.drawDeferred_iff.mp h)

theorem exec_drw_of_fits {s : State} {n : Imm4} (hd : s.drawDeferred = false)
    (h : n.toNat = 0 ∨ s.index.toNat + n.toNat ≤ 4096) (x y : Reg) :
    exec (.drw x y n) s = .next (s.drawSprite x y n) := by
  rw [exec_drw_of_ready s hd, s.checked_of_fits h]

/-- A cell after a draw. -/
theorem State.cell_drawSprite (s : State) (x y : Reg) (n : Imm4) (row : Fin 32) (col : Fin 64) :
    (SpriteCovers s x y n row col →
      Display.cell (s.drawSprite x y n).display row col = !Display.cell s.display row col) ∧
    (¬SpriteCovers s x y n row col →
      Display.cell (s.drawSprite x y n).display row col = Display.cell s.display row col) := by
  have hcells := s.toggles_drawSprite x y n
  rw [s.display_drawSprite]
  exact ⟨hcells.on_cells (row, col), hcells.off_cells (row, col)⟩

/-- A draw, and then one of the same sprite at the same place, whatever else has changed: the same cells are covered. -/
theorem spriteCovers_after_drawSprite {s u : State} {x y : Reg} {n : Imm4} (hx : x ≠ VF) (hy : y ≠ VF)
    (hregx : u.reg x = (s.drawSprite x y n).reg x) (hregy : u.reg y = (s.drawSprite x y n).reg y)
    (hindex : u.index = (s.drawSprite x y n).index) (hmem : u.mem = (s.drawSprite x y n).mem)
    (hcfg : u.cfg = (s.drawSprite x y n).cfg) (row : Fin 32) (col : Fin 64) :
    SpriteCovers u x y n row col ↔ SpriteCovers s x y n row col := by
  have hframe := s.onlyChanges_drawSprite x y n
  refine spriteCovers_congr (hregx.trans (s.reg_drawSprite x y n hx)) (hregy.trans (s.reg_drawSprite x y n hy))
    (hindex.trans (hframe .index (by decide))) (fun a => ?_) (hcfg.trans (hframe .config (by decide))) n row col
  have hbyte : u.byteAt a = (s.drawSprite x y n).byteAt a := by simp only [State.byteAt, hmem, hcfg]
  exact hbyte.trans (hframe .memory (by decide) a)

/-! ### The obligations -/

/-- Settles O45: a write of the bitmap with no cell on, and of the dirty flag. -/
theorem clearTurnsEveryCellOff : Obligations.ClearTurnsEveryCellOff :=
  ⟨decodeWord_cls, fun s => ⟨_, exec_cls s, Display.cell_clear, rfl,
    (s.onlyChanges_setDisplay _).trans (State.onlyChanges_markDirty _)⟩⟩

/-- Settles O46: the draw loops toggle the covered cells, each of them once. -/
theorem drawTogglesCoveredCells : Obligations.DrawTogglesCoveredCells := by
  intro x y n s
  refine ⟨decodeWord_drw x y n, fun hready hfits => ?_⟩
  have hcell := s.cell_drawSprite x y n
  obtain ⟨hon, hoff⟩ := s.collision_drawSprite x y n
  exact ⟨_, exec_drw_of_fits (State.drawDeferred_eq_false hready) hfits x y, fun row col => (hcell row col).1,
    fun row col => (hcell row col).2, hon, hoff, s.displayDirty_drawSprite x y n,
    s.displayWaitCounter_drawSprite x y n, fun r hr => s.reg_drawSprite x y n (by simpa using hr),
    s.onlyChanges_drawSprite x y n⟩

/-- Settles O47: the two outcomes of a draw that does not draw. -/
theorem drawIsDeferredOrFaults : Obligations.DrawIsDeferredOrFaults := by
  intro x y n s
  refine ⟨fun hwait hcounter => ?_, fun hready hn hover => ?_⟩
  · have hdeferred := s.drawDeferred_iff.mpr ⟨hwait, hcounter⟩
    exact ⟨_, exec_drw_of_deferred s hdeferred x y n, rfl, s.onlyChanges_setPc _⟩
  · have hexec := exec_drw_of_ready s (State.drawDeferred_eq_false hready) x y n
    exact exists_next_of_exec_checked_of_exceeds hexec hn (by omega)

/-- Settles O48: both draws toggle the same cells, and a cell toggled twice is as before. -/
theorem drawingTwiceRestoresTheDisplay : Obligations.DrawingTwiceRestoresTheDisplay := by
  intro x y n s t u w hx hy hready hfits hdraw hdisplay hregx hregy hindex hmem hcfg hready' hdraw'
  cases (exec_drw_of_fits hready (.inr hfits) x y).symm.trans hdraw
  have hindex' : u.index = s.index := hindex.trans (s.onlyChanges_drawSprite x y n .index (by decide))
  cases (exec_drw_of_fits hready' (.inr (hindex' ▸ hfits)) x y).symm.trans hdraw'
  have hcovers := spriteCovers_after_drawSprite hx hy hregx hregy hindex hmem hcfg
  refine ⟨Display.eq_of_cell_eq fun row col => ?_, fun hoff ⟨row, col, hcov⟩ => ?_⟩
  · obtain ⟨hon₁, hoff₁⟩ := s.cell_drawSprite x y n row col
    obtain ⟨hon₂, hoff₂⟩ := u.cell_drawSprite x y n row col
    by_cases hcov : SpriteCovers s x y n row col
    · rw [hon₂ ((hcovers row col).mpr hcov), hdisplay, hon₁ hcov, Bool.not_not]
    · rw [hoff₂ (mt (hcovers row col).mp hcov), hdisplay, hoff₁ hcov]
  · have hcell : Display.cell u.display row col = true := by
      rw [hdisplay, (s.cell_drawSprite x y n row col).1 hcov, hoff row col]
      rfl
    exact (u.collision_drawSprite x y n).1 ⟨row, col, (hcovers row col).mpr hcov, hcell⟩

end Sys2Proof.Machine
end

section
/-! PROOFS. The current key (60_exceptions R230): the newest time in the window, the lowest key on a tie. -/

namespace Sys2Proof.Machine

section
variable {s : State}

theorem State.currentKey_eq_some_iff {k : Reg} :
    s.currentKey = some k ↔ ∃ t, newestPress s.keyLastPressed.toList = some t ∧
      s.inputs.now - t ≤ s.cfg.keyWindow ∧ firstPressedAt t s.keyLastPressed.toList 0 = some k := by
  unfold State.currentKey
  cases newestPress s.keyLastPressed.toList with
  | none => simp
  | some t => simp

end

/-- The list of a key table, by key number. -/
theorem getElem?_toList_eq_some_iff {keys : Vector (Option Nat) 16} {j t : Nat} :
    keys.toList[j]? = some (some t) ↔ ∃ h : j < 16, keys[j] = some t := by
  rw [Vector.getElem?_toList, Vector.getElem?_eq_some_iff]

/-- The recorded times of a key table, as a list and by key. -/
theorem some_mem_toList_iff {keys : Vector (Option Nat) 16} {t : Nat} :
    some t ∈ keys.toList ↔ ∃ j : Fin 16, keys[j] = some t := by
  simp only [List.mem_iff_getElem?, getElem?_toList_eq_some_iff, Fin.exists_iff, Fin.getElem_fin]

theorem newestPress_toList_eq_some_iff {keys : Vector (Option Nat) 16} {t : Nat} :
    newestPress keys.toList = some t ↔
      (∃ j : Fin 16, keys[j] = some t) ∧ ∀ (j : Fin 16) (u : Nat), keys[j] = some u → u ≤ t := by
  simp only [newestPress_eq_some_iff, some_mem_toList_iff, forall_exists_index]
  exact and_congr_right' forall_comm

theorem firstPressedAt_toList_eq_some_iff {keys : Vector (Option Nat) 16} {t : Nat} {k : Reg} :
    firstPressedAt t keys.toList 0 = some k ↔
      keys[k.toNat]'k.isLt = some t ∧ ∀ j : Fin 16, keys[j] = some t → k.toNat ≤ j.val := by
  rw [firstPressedAt_eq_some_iff t _ 0 k (by simp)]
  simp only [Nat.zero_add, getElem?_toList_eq_some_iff, ne_eq]
  constructor
  · rintro ⟨_, ⟨hlt, hk⟩, hfirst, rfl⟩
    refine ⟨hk, fun j hj => Nat.le_of_not_lt fun hjk => hfirst j hjk ⟨j.isLt, hj⟩⟩
  · rintro ⟨hk, hfirst⟩
    exact ⟨k.toNat, ⟨k.isLt, hk⟩, fun j hjk ⟨hj, hjt⟩ => absurd (hfirst ⟨j, hj⟩ hjt) (Nat.not_le_of_lt hjk), rfl⟩

/-! ### The obligation -/

/-- Settles O49: the newest time is the one recorded for the key, and the key is the first that holds it. -/
theorem currentKeyIsTheNewestWithinTheWindow : Obligations.CurrentKeyIsTheNewestWithinTheWindow := by
  intro s k
  rw [State.currentKey_eq_some_iff]
  refine exists_congr fun t => ?_
  rw [newestPress_toList_eq_some_iff, firstPressedAt_toList_eq_some_iff]
  constructor
  · rintro ⟨⟨-, hnewest⟩, hwindow, hk, hfirst⟩
    exact ⟨hk, hnewest, hfirst, by omega⟩
  · rintro ⟨hk, hnewest, hfirst, hwindow⟩
    exact ⟨⟨⟨⟨k.toNat, k.isLt⟩, hk⟩, hnewest⟩, by omega, hk, hfirst⟩

end Sys2Proof.Machine
end
